-- ==== Sys2Proof/Word.lean ====
section
/-! DEFINITION. The value types of the spec (00_scope.md R13): every value is unsigned. -/

namespace Sys2Proof

/-- A byte, 8 bits (R13). -/
abbrev Byte := BitVec 8

/-- The spec's `UInt16`, 16 bits (R13). -/
abbrev Half := BitVec 16

/-- A word, 32 bits (R13); the width of the host data bus (R12). -/
abbrev Word := BitVec 32

end Sys2Proof
end

