-- ==== Sys2Proof/Syntax.lean ====
section
/-! DEFINITION. The instructions: one constructor per row of spec/opcode_table.json. They are the steps of the
block's step relation (00_scope.md R3): five command words and six events. -/

namespace Sys2Proof

inductive Instr where
  /-- CRC_INIT (40_crc.md R79). -/
  | crcInit
  /-- CRC_FEED BYTE (40_crc.md R80). -/
  | crcFeed (byte : Byte)
  /-- CRC_PBUF N, N = v[8:0] (40_crc.md R81). -/
  | crcPbuf (n : BitVec 9)
  /-- BUILD (41_frame_codec.md R95). -/
  | build
  /-- START (42_transaction.md R100). -/
  | start
  /-- HOST_READ: `MemRead(off, n)` of n bytes at an offset of the window (20_memory.md R51 to R53). -/
  | hostRead (off : BitVec 10) (n : Nat)
  /-- HOST_WRITE: `MemWrite(off, n, v)` (20_memory.md R54 to R57). -/
  | hostWrite (off : BitVec 10) (n : Nat) (v : Word)
  /-- TX_DONE: the line has sent the offered byte (42_transaction.md R102). -/
  | txDone
  /-- RX_BYTE b: a byte arrived from the line (42_transaction.md R106). -/
  | rxByte (b : Byte)
  /-- TICK: one period of the tick facility has passed (42_transaction.md R112). -/
  | tick
  /-- RESET: the platform's reset input (70_reset_and_hazards.md R131). -/
  | reset
deriving DecidableEq, Repr

end Sys2Proof
end

