-- ==== Sys2Proof/WellFormed.lean ====
section
/-! DEFINITION. Which instructions the operand columns of spec/opcode_table.json admit. An access of another width
is still a step of the machine (it answers BusError, 20_memory.md R46): well-formedness says what the table lists,
not what `exec` runs. -/

namespace Sys2Proof

/-- N of CRC_PBUF is at most 256 (30_encoding.md R66). -/
def pbufCountOk (n : BitVec 9) : Bool := n.toNat ≤ 256

/-- The access widths the table lists: 1 or 4 bytes (20_memory.md R46). -/
def accessWidthOk (n : Nat) : Bool := n == 1 || n == 4

/-- The written value has n bytes: a byte write carries v[7:0] alone (20_memory.md R57). -/
def writeValueOk (n : Nat) (v : Word) : Bool := n != 1 || v.toNat < 256

def Instr.wellFormed : Instr → Bool
  | .crcInit => true
  | .crcFeed _ => true
  | .crcPbuf n => pbufCountOk n
  | .build => true
  | .start => true
  | .hostRead _ n => accessWidthOk n
  | .hostWrite _ n v => accessWidthOk n && writeValueOk n v
  | .txDone => true
  | .rxByte _ => true
  | .tick => true
  | .reset => true

/-- The command rows of the table, those with a command word (30_encoding.md R63). -/
def Instr.isCommand : Instr → Bool
  | .crcInit => true
  | .crcFeed _ => true
  | .crcPbuf _ => true
  | .build => true
  | .start => true
  | .hostRead _ _ => false
  | .hostWrite _ _ _ => false
  | .txDone => false
  | .rxByte _ => false
  | .tick => false
  | .reset => false

end Sys2Proof
end

