-- ==== Sys2Proof/Decode.lean ====
section
/-! DEFINITION. Command words (30_encoding.md section 1): the decoder, total on every word, and the encoder.
Events have no word (opcode_table.json gives their rows no match and no mask). -/

namespace Sys2Proof

/-- Why a word is no command (30_encoding.md R69); every one of these is IllegalCommand to the block. -/
inductive DecodeReject where
  /-- OPC is 0x00, 0x04 to 0x0F or 0x12 to 0xFF (R63). -/
  | reservedOpcode
  /-- OPC is defined and a reserved operand bit is set (R62, R69). -/
  | reservedOperandBits
  /-- CRC_PBUF with N in 257..511 (R66, R69). -/
  | pbufCountAbove256
deriving DecidableEq, Repr

/-- OPC = v[31:24] (R62). -/
def opcOf (v : Word) : Byte := v.extractLsb' 24 8

/-- OPERAND = v[23:0] (R62). -/
def operandOf (v : Word) : BitVec 24 := v.extractLsb' 0 24

/-- A command whose OPERAND is reserved as a whole. -/
def decodePlain (i : Instr) (v : Word) : Except DecodeReject Instr :=
  if operandOf v = 0 then .ok i else .error .reservedOperandBits

/-- CRC_FEED: BYTE = v[7:0], v[23:8] reserved (R65). -/
def decodeCrcFeed (v : Word) : Except DecodeReject Instr :=
  if v.extractLsb' 8 16 = 0 then .ok (.crcFeed (v.extractLsb' 0 8)) else .error .reservedOperandBits

/-- CRC_PBUF: N = v[8:0], v[23:9] reserved, N at most 256 (R66). -/
def decodeCrcPbuf (v : Word) : Except DecodeReject Instr :=
  if v.extractLsb' 9 15 = 0 then
    if pbufCountOk (v.extractLsb' 0 9) then .ok (.crcPbuf (v.extractLsb' 0 9)) else .error .pbufCountAbove256
  else .error .reservedOperandBits

/-- The command a word written to CMD encodes, or why it is illegal (R63, R69, R70). -/
def decodeCommand (v : Word) : Except DecodeReject Instr :=
  if opcOf v = 0x01#8 then decodePlain .crcInit v
  else if opcOf v = 0x02#8 then decodeCrcFeed v
  else if opcOf v = 0x03#8 then decodeCrcPbuf v
  else if opcOf v = 0x10#8 then decodePlain .build v
  else if opcOf v = 0x11#8 then decodePlain .start v
  else .error .reservedOpcode

/-- The command a word encodes, if it is legal. -/
def commandOf (v : Word) : Option Instr :=
  match decodeCommand v with
  | .ok i => some i
  | .error _ => none

/-- The word of a command (R64 to R68); none for an event. -/
def encode : Instr → Option Word
  | .crcInit => some 0x01000000#32
  | .crcFeed byte => some (0x02000000#32 ||| byte.setWidth 32)
  | .crcPbuf n => some (0x03000000#32 ||| n.setWidth 32)
  | .build => some 0x10000000#32
  | .start => some 0x11000000#32
  | .hostRead _ _ => none
  | .hostWrite _ _ _ => none
  | .txDone => none
  | .rxByte _ => none
  | .tick => none
  | .reset => none

/-- The word whose low `nbits` bits are those of `w`, all bits above zero; a command word has 32 bits (R62, R74). -/
def tableWord (nbits w : Nat) : Word := BitVec.ofNat 32 (w % 2 ^ nbits)

/-- The instruction the decoder reads from a row's bits, numbered as opcode_table.json numbers them: bit 0 is bit 0 of
the command word (30_encoding.md R62), which the host writes whole to CMD. -/
def decodeTableWord (nbits w : Nat) : Option Instr := commandOf (tableWord nbits w)

end Sys2Proof
end

