-- ==== Sys2Proof/Machine/Bits.lean ====
section
/-! DEFINITION. Byte-order helpers (00_scope.md R14) and the little-endian buffer word (20_memory.md R53). -/

namespace Sys2Proof.Machine

/-- `hi(h) = h[15:8]` (R14). -/
def hi (h : Half) : Byte := h.extractLsb' 8 8

/-- `lo(h) = h[7:0]` (R14). -/
def lo (h : Half) : Byte := h.extractLsb' 0 8

/-- `be16(x, y) = (x << 8) | y` (R14). -/
def be16 (x y : Byte) : Half := x.setWidth 16 <<< 8 ||| y.setWidth 16

/-- `le16(x, y) = (y << 8) | x` (R14). -/
def le16 (x y : Byte) : Half := y.setWidth 16 <<< 8 ||| x.setWidth 16

/-- A field in its place in a 32-bit register: bit 0 of `x` stands at bit `k` (R13). -/
def place {w : Nat} (k : Nat) (x : BitVec w) : Word := x.setWidth 32 <<< k

/-- The word whose byte at the lowest offset is in bits [7:0] (20_memory.md R53). -/
def le32 (b0 b1 b2 b3 : Byte) : Word := place 0 b0 ||| place 8 b1 ||| place 16 b2 ||| place 24 b3

/-- Byte `k` of a word, counted from bits [7:0] (R57). -/
def byteOf (v : Word) (k : Nat) : Byte := v.extractLsb' (8 * k) 8

end Sys2Proof.Machine
end

