-- ==== Sys2Proof/Machine/Checksum.lean ====
section
/-! DEFINITION. The Checksum Calculator (40_crc.md section 1). The polynomial, the initial value and the final
exclusive-or are the spec's reading of "CRC-16/MODBUS" from general knowledge (R76, R77, D9; notes/assumptions/8.md). -/

namespace Sys2Proof.Machine

/-- One turn of the loop of R76. -/
def crcShift (c : Half) : Half := if c.getLsbD 0 then (c >>> 1) ^^^ 0xA001#16 else c >>> 1

/-- `k` turns of the loop. -/
def crcShifts : Nat → Half → Half
  | 0, c => c
  | k + 1, c => crcShifts k (crcShift c)

/-- The one-byte update (R76). -/
def crcByte (c : Half) (b : Byte) : Half := crcShifts 8 (c ^^^ b.setWidth 16)

/-- The initial value of the checksum (R77). -/
def crcInitial : Half := 0xFFFF#16

/-- The checksum of a byte list (R77): no final exclusive-or, no reversal. -/
def crc16 (l : List Byte) : Half := l.foldl crcByte crcInitial

end Sys2Proof.Machine
end

