-- ==== Sys2Proof/Machine/FrameCodec.lean ====
section
/-! DEFINITION. The Frame Codec's pure functions (41_frame_codec.md sections 1 and 2). -/

namespace Sys2Proof.Machine

/-- The bytes of a request before its checksum (R85, 30_encoding.md R72). -/
def requestBody (slave fc : Byte) (addr count : Half) (payload : List Byte) : List Byte :=
  [slave, fc, hi addr, lo addr, hi count, lo count] ++ payload

/-- Append the checksum, low byte first (20_memory.md R58). -/
def withTrailer (body : List Byte) : List Byte := body ++ [lo (crc16 body), hi (crc16 body)]

/-- `encodeRequest` (R85). -/
def encodeRequest (slave fc : Byte) (addr count : Half) (payload : List Byte) : List Byte :=
  withTrailer (requestBody slave fc addr count payload)

/-- The record of a validated response (R88, R92). -/
structure Response where
  slave : Byte
  fc    : Byte
  data  : List Byte
  crc   : Half
deriving DecidableEq, Repr

/-- What `parse` answers (R88). -/
inductive Parsed where
  | ok (r : Response)
  | crcError
deriving DecidableEq, Repr

/-- Byte `i` of a frame; a frame the block holds has it (10_state.md R43(a); notes/assumptions/10.md). -/
def byteAt (bs : List Byte) (i : Nat) : Byte := bs.getD i 0

/-- The bytes a trailing checksum covers: all but the last two (R88). -/
def checkedPart (bs : List Byte) : List Byte := bs.take (bs.length - 2)

/-- The trailing checksum, low byte first (R88). -/
def trailerOf (bs : List Byte) : Half := le16 (byteAt bs (bs.length - 2)) (byteAt bs (bs.length - 1))

/-- The data region: bytes 2..n-3 (R93). -/
def dataRegion (bs : List Byte) : List Byte := (checkedPart bs).drop 2

/-- `parse` (R88, R89): the checksum is the only test (R98). -/
def parse (bs : List Byte) : Parsed :=
  if bs.length < 4 then .crcError
  else if crc16 (checkedPart bs) = trailerOf bs then
    .ok { slave := byteAt bs 0, fc := byteAt bs 1, data := dataRegion bs, crc := trailerOf bs }
  else .crcError

/-- `slaveOf(f) = f[0]` (R91). -/
def slaveOf (f : List Byte) : Byte := byteAt f 0

/-- `fcOf(f) = f[1]` (R91). -/
def fcOf (f : List Byte) : Byte := byteAt f 1

/-- `addrOf(f) = be16(f[2], f[3])` (R91). -/
def addrOf (f : List Byte) : Half := be16 (byteAt f 2) (byteAt f 3)

/-- `countOf(f) = be16(f[4], f[5])` (R91). -/
def countOf (f : List Byte) : Half := be16 (byteAt f 4) (byteAt f 5)

/-- `payloadOf(f) = f[6..len(f)-3]` (R91). -/
def payloadOf (f : List Byte) : List Byte := (checkedPart f).drop 6

end Sys2Proof.Machine
end

