-- ==== Sys2Proof/Config.lean ====
section
/-! DEFINITION. The implementation parameters (00_scope.md section 4): R16's `Config`, fixed for a machine.
It is plain data carried in State beside the block state; no step writes it (notes/assumptions/4.md). -/

namespace Sys2Proof

/-- One entry in which a machine's RESP_LEN differs from the default table (R10, R96). -/
structure RespLenEntry where
  fc    : Byte
  count : Half
  len   : Option Nat
deriving DecidableEq, Repr

/-- The parameters of the block (00_scope.md R6 to R11). -/
structure Config where
  /-- MAX_COUNT, the largest register count a request may carry (R6). -/
  maxCount : Nat
  /-- RX_CAPACITY, the capacity of the receive buffer in bytes (R7). -/
  rxCapacity : Nat
  /-- TX_CAPACITY, the capacity of the transmit frame buffer in bytes (R9). -/
  txCapacity : Nat
  /-- PBUF_CAPACITY, the capacity of the payload staging buffer in bytes (R9). -/
  pbufCapacity : Nat
  /-- The reset value of TIMEOUT, in ticks (R8). -/
  timeoutReset : Half
  /-- TICK_PERIOD in microseconds (R8); no step depends on it, only Machine/Timing.lean reads it (R144). -/
  tickPeriodUs : Nat
  /-- RESP_LEN, as the entries in which it differs from the default table of R96 (R10, R97). -/
  respLenOverride : List RespLenEntry
  /-- BASE, the host bus address of the register window (R11, OPEN). -/
  base : Nat
deriving DecidableEq, Repr

/-- The defaults of the parameter summary of 00_scope.md. BASE has none there: 0 is a DESIGN CHOICE, unsafe if a
claim leans on it; no statement does (notes/assumptions/5.md). -/
def Config.specDefault : Config where
  maxCount := 128
  rxCapacity := 256
  txCapacity := 256
  pbufCapacity := 256
  timeoutReset := 200#16
  tickPeriodUs := 1000
  respLenOverride := []
  base := 0

/-- The bytes of a request frame besides its payload: six header bytes and the checksum (30_encoding.md R72). -/
def Config.frameOverhead : Nat := 8

/-- The size of the register window, 1 KiB (10_state.md R30, 20_memory.md R45). -/
def Config.windowSize : Nat := 0x400

end Sys2Proof
end

