-- ==== Sys2Proof/Machine/State.lean ====
section
/-! DEFINITION. The block state of 10_state.md R18, the configuration it is read under, and the ends of the agents'
wires; the reset state of R44; the ways a step can stop. -/

namespace Sys2Proof.Machine

/-- The engine state (R19). -/
inductive EngineState where
  | idle
  | transmitting
  | awaitingResponse
deriving DecidableEq, Repr

/-- The outcome of the last transaction that ended (R28, 60_exceptions.md R121). -/
inductive TxnResult where
  | none
  | complete
  | crcError
  | timedOut
deriving DecidableEq, Repr

/-- The status of the last command word written to CMD (R29, 60_exceptions.md R120). -/
inductive CmdStatus where
  | ok
  | lengthExceeded
  | txOverflow
  | busy
  | noFrame
  | unsupportedFunction
  | illegalCommand
deriving DecidableEq, Repr

/-- What the block answered to the last host access (20_memory.md R50 to R57). The model's own field: a step has no
other way to hand a value to the host (notes/assumptions/6.md). -/
inductive BusResponse where
  /-- No access has been answered yet. -/
  | none
  /-- A byte read returned this byte (R52). -/
  | byteData (b : Byte)
  /-- A word read returned this word (R51, R53). -/
  | wordData (w : Word)
  /-- A write completed without error (R54 to R57). -/
  | written
  /-- The access was refused (R50). -/
  | busError
deriving DecidableEq, Repr

/-- One event of an agent outside the block (00_scope.md R16, R17). Bus accesses carry the host bus address
(20_memory.md R45); the block decodes it. -/
inductive Input where
  | busRead (addr n : Nat)
  | busWrite (addr n : Nat) (v : Word)
  | txDone
  | rxByte (b : Byte)
  | tick
  | reset
deriving DecidableEq, Repr

/-- Storage as address and byte cells, addresses strictly rising; an address not listed holds `none`, the spec's
unwritten byte (R26). -/
abbrev Memory := List Host.Cell

/-- Why the machine stops. -/
inductive Fault where
  /-- A read of a PBUF byte nothing has written since reset, by HOST_READ, BUILD or CRC_PBUF. The spec's own model
  fault (R40, 90_conflicts.md C7): on the hardware the byte is unspecified. Safe: nothing is proved past it. -/
  | uninitPayload
deriving DecidableEq, Repr

/-- Why a step has no meaning. -/
inductive Refusal where
  /-- An instruction of the table with no meaning yet, raised by `exec` alone. Safe: nothing is proved past it. -/
  | notModelled (mnemonic : String)
deriving DecidableEq, Repr

end Sys2Proof.Machine

namespace Sys2Proof.Machine

/-- The state (R18). The field names are the spec's. -/
structure State where
  /-- The parameters, R16's `Config`; no step writes them. -/
  cfg        : Config
  /-- Engine state (R19). -/
  state      : EngineState
  /-- Host CRC accumulator (R23). -/
  crcAcc     : Half
  /-- Request operand: slave address (R21). -/
  reqSlave   : Byte
  /-- Request operand: function code (R21). -/
  reqFc      : Byte
  /-- Request operand: write payload length, below 512 (R21, R34). -/
  reqPlen    : BitVec 9
  /-- Request operand: register start address (R21). -/
  reqAddr    : Half
  /-- Request operand: register count (R21). -/
  reqCount   : Half
  /-- Response timeout in ticks (R24). -/
  timeoutCfg : Half
  /-- Payload staging buffer, addresses 0 to 255 (R26). -/
  pbuf       : Memory
  /-- Built request frame, [] = none (R25). -/
  txFrame    : List Byte
  /-- Bytes of txFrame completely sent (R22). -/
  txIdx      : Nat
  /-- Bytes received in this transaction (R27). -/
  rxFrame    : List Byte
  /-- Expected response length (R27). -/
  rxExpect   : Nat
  /-- A byte was dropped for want of space (R27). -/
  rxOverrun  : Bool
  /-- Ticks elapsed in AwaitingResponse (R24). -/
  ticks      : Half
  /-- Timeout window of this transaction (R24). -/
  toLatched  : Half
  /-- A transaction has ended since START (R28). -/
  done       : Bool
  /-- Outcome of the last transaction that ended (R28). -/
  txnResult  : TxnResult
  /-- Status of the last command word (R29). -/
  cmdStatus  : CmdStatus
  /-- The model's own: the agents' pending events, next first (notes/assumptions/2.md). -/
  inputs     : List Input
  /-- The model's own: the answer to the last host access (notes/assumptions/6.md). -/
  busResp    : BusResponse
deriving DecidableEq, Repr

/-- The outcomes of a step of this machine. -/
abbrev Result := Host.Outcome State Fault Refusal

/-- The machine right after reset (R44), under the default parameters, with no event pending. -/
def State.reset : State where
  cfg := Config.specDefault
  state := .idle
  crcAcc := 0xFFFF#16
  reqSlave := 0
  reqFc := 0
  reqPlen := 0
  reqAddr := 0
  reqCount := 0
  timeoutCfg := Config.specDefault.timeoutReset
  pbuf := []
  txFrame := []
  txIdx := 0
  rxFrame := []
  rxExpect := 0
  rxOverrun := false
  ticks := 0
  toLatched := 0
  done := false
  txnResult := .none
  cmdStatus := .ok
  inputs := []
  busResp := .none

end Sys2Proof.Machine
end

