-- ==== Sys2Proof/Machine/Flags.lean ====
section
/-! DEFINITION. The status fields and their numeric codes (10_state.md R19, R20, R28, R29, R32; 60_exceptions.md R120,
R121), and the outputs that are functions of the state. -/

namespace Sys2Proof.Machine

/-- STATUS.STATE (R19, R32). -/
def EngineState.code : EngineState → BitVec 2
  | .idle => 0
  | .transmitting => 1
  | .awaitingResponse => 2

/-- STATUS.TXN_RESULT (60_exceptions.md R121). -/
def TxnResult.code : TxnResult → BitVec 2
  | .none => 0
  | .complete => 1
  | .crcError => 2
  | .timedOut => 3

/-- STATUS.CMD_STATUS (60_exceptions.md R120). -/
def CmdStatus.code : CmdStatus → BitVec 4
  | .ok => 0
  | .lengthExceeded => 1
  | .txOverflow => 2
  | .busy => 3
  | .noFrame => 4
  | .unsupportedFunction => 5
  | .illegalCommand => 6

/-- The transceiver direction output: 1 selects transmit (R20). -/
def State.de (s : State) : Bool := decide (s.state = .transmitting)

/-- The byte the block offers to the line (42_transaction.md R105). -/
def State.txOut (s : State) : Option Byte :=
  if s.state = .transmitting then s.txFrame[s.txIdx]? else none

/-- The STATUS word (R32): STATE [1:0], DE [2], DONE [3], TXN_RESULT [5:4], RX_OVERRUN [6], CMD_STATUS [11:8]; the
other bits read 0. -/
def State.statusWord (s : State) : Word :=
  place 0 s.state.code ||| place 2 (BitVec.ofBool s.de) ||| place 3 (BitVec.ofBool s.done) |||
    place 4 s.txnResult.code ||| place 6 (BitVec.ofBool s.rxOverrun) ||| place 8 s.cmdStatus.code

end Sys2Proof.Machine
end

