-- ==== Sys2Proof/Machine/Ops.lean ====
section
/-! DEFINITION. The shared operations over storage and state. The block takes no trap (60_exceptions.md R126): the one
shared way an error shows itself is `State.report`, which writes a command's status code (R15, R119). -/

namespace Sys2Proof.Machine

/-- The canonical form of the PBUF cells: addresses strictly rising (10_state.md R26). -/
abbrev Memory.wf (m : Memory) : Prop := m.Pairwise (fun x y => x.1 < y.1)

/-- Every written byte lies in a buffer of `cap` bytes (00_scope.md R9, 10_state.md R26). -/
abbrev Memory.within (m : Memory) (cap : Nat) : Prop := ∀ c ∈ m, c.1 < cap

/-- The byte at an address, or none where nothing has been written since reset (R26). -/
def Memory.read : Memory → Nat → Option Byte
  | [], _ => none
  | (k, b) :: m, a => if k = a then some b else Memory.read m a

/-- Store a byte, keeping the addresses strictly rising. -/
def Memory.write : Memory → Nat → Byte → Memory
  | [], a, b => [(a, b)]
  | (k, c) :: m, a, b =>
    if a < k then (a, b) :: (k, c) :: m
    else if a = k then (a, b) :: m
    else (k, c) :: Memory.write m a b

/-- The `k` bytes from address `a` up, or none if one of them is unwritten. -/
def Memory.readRun (m : Memory) (a : Nat) : Nat → Option (List Byte)
  | 0 => some []
  | k + 1 =>
    match Memory.read m a, Memory.readRun m (a + 1) k with
    | some b, some bs => some (b :: bs)
    | _, _ => none

/-- Store a byte in a buffer of `cap` bytes; past its end there is nothing to store to (00_scope.md R9). With the default
PBUF_CAPACITY no PBUF offset is past the end; with a smaller one this is a DESIGN CHOICE (notes/assumptions/15.md). -/
def Memory.store (m : Memory) (cap a : Nat) (b : Byte) : Memory := if a < cap then m.write a b else m

/-- Store a word's four bytes little-endian from address `a` up (20_memory.md R57). -/
def Memory.storeWord (m : Memory) (cap a : Nat) (v : Word) : Memory :=
  (((m.store cap a (byteOf v 0)).store cap (a + 1) (byteOf v 1)).store cap (a + 2) (byteOf v 2)).store cap (a + 3)
    (byteOf v 3)

/-- Answer a host access (20_memory.md R50 to R57). -/
def State.respond (s : State) (r : BusResponse) : State := { s with busResp := r }

/-- What every write to CMD does last: `cmdStatus` takes the command's code and the write itself completes
(10_state.md R29, 20_memory.md R56, 30_encoding.md R69). -/
def State.report (s : State) (c : CmdStatus) : State := { s with cmdStatus := c, busResp := .written }

/-- End the transaction: Idle and `done` in the step that records the outcome (10_state.md R28; 42_transaction.md R108,
R112). -/
def State.endTransaction (s : State) (r : TxnResult) (rx : List Byte) : State :=
  { s with state := .idle, done := true, txnResult := r, rxFrame := rx }

/-- The host accumulator takes a value (10_state.md R23). -/
def State.setCrc (s : State) (c : Half) : State := { s with crcAcc := c }

/-- One more byte of the frame has been sent (10_state.md R22). -/
def State.advanceTx (s : State) : State := { s with txIdx := s.txIdx + 1 }

/-- The received bytes become `rx` (10_state.md R27). -/
def State.setRx (s : State) (rx : List Byte) : State := { s with rxFrame := rx }

/-- A received byte was dropped for want of space (10_state.md R27). -/
def State.markOverrun (s : State) : State := { s with rxOverrun := true }

/-- Take the next event off the list of pending ones. -/
def State.withInputs (s : State) (l : List Input) : State := { s with inputs := l }

end Sys2Proof.Machine
end

