-- ==== Sys2Proof/Machine/Operands.lean ====
section
/-! DEFINITION. The host register map (10_state.md section 2): which location an offset names, which accesses are
accepted, and what each location reads as. -/

namespace Sys2Proof.Machine

/-- The nine registers of R30. -/
inductive Reg where
  | cmd
  | status
  | crc
  | reqHdr
  | reqArg
  | timeout
  | txInfo
  | rxInfo
  | ticks
deriving DecidableEq, Repr

/-- What an offset of the window names (R30). -/
inductive Location where
  | register (r : Reg)
  | pbuf (i : Byte)
  | txbuf (i : Byte)
  | rxbuf (i : Byte)
  /-- 0x024 to 0x0FF (20_memory.md R49). -/
  | reserved
deriving DecidableEq, Repr

/-- The offset of a register (R30). -/
def Reg.offset : Reg → BitVec 10
  | .cmd => 0x000
  | .status => 0x004
  | .crc => 0x008
  | .reqHdr => 0x00C
  | .reqArg => 0x010
  | .timeout => 0x014
  | .txInfo => 0x018
  | .rxInfo => 0x01C
  | .ticks => 0x020

/-- The register or hole of the first 256 offsets, by its word (R30). -/
def locateWord (k : Nat) : Location :=
  match k with
  | 0 => .register .cmd
  | 1 => .register .status
  | 2 => .register .crc
  | 3 => .register .reqHdr
  | 4 => .register .reqArg
  | 5 => .register .timeout
  | 6 => .register .txInfo
  | 7 => .register .rxInfo
  | 8 => .register .ticks
  | _ => .reserved

/-- Decode an offset against the map (R30, 20_memory.md R45). -/
def locate (off : BitVec 10) : Location :=
  if off.toNat < 0x100 then locateWord (off.toNat / 4)
  else if off.toNat < 0x200 then .pbuf (off.extractLsb' 0 8)
  else if off.toNat < 0x300 then .txbuf (off.extractLsb' 0 8)
  else .rxbuf (off.extractLsb' 0 8)

/-- A word access, aligned (20_memory.md R47). -/
def alignedWord (off : BitVec 10) (n : Nat) : Bool := n == 4 && off.toNat % 4 == 0

/-- Whether the access is accepted; every other one is a BusError (20_memory.md R46 to R50). -/
def accessAccepted (off : BitVec 10) (n : Nat) : Bool :=
  match locate off with
  | .register _ => alignedWord off n
  | .pbuf _ => n == 1 || alignedWord off n
  | .txbuf _ => n == 1 || alignedWord off n
  | .rxbuf _ => n == 1 || alignedWord off n
  | .reserved => false

/-- The word a register reads as (R31 to R39); a bit no field stands at reads 0. -/
def State.readReg (s : State) : Reg → Word
  | .cmd => 0
  | .status => s.statusWord
  | .crc => place 0 s.crcAcc
  | .reqHdr => place 0 s.reqSlave ||| place 8 s.reqFc ||| place 16 s.reqPlen
  | .reqArg => place 0 s.reqAddr ||| place 16 s.reqCount
  | .timeout => place 0 s.timeoutCfg
  | .txInfo =>
    place 0 (BitVec.ofNat 9 s.txFrame.length) ||| place 16 (BitVec.ofNat 9 s.txIdx) |||
      place 31 (BitVec.ofBool (decide (s.txFrame ≠ [])))
  | .rxInfo => place 0 (BitVec.ofNat 9 s.rxFrame.length) ||| place 16 (BitVec.ofNat 9 s.rxExpect)
  | .ticks => place 0 s.ticks ||| place 16 s.toLatched

/-- A frame byte as a buffer window shows it: 0x00 past the end (R41, R42). -/
def windowByte (frame : List Byte) (i : Byte) : Byte := frame.getD i.toNat 0

/-- The byte a buffer offset reads as; none for an unwritten PBUF byte (R40 to R42, 20_memory.md R52). -/
def State.bufferByte (s : State) (off : BitVec 10) : Option Byte :=
  match locate off with
  | .register _ => none
  | .pbuf i => s.pbuf.read i.toNat
  | .txbuf i => some (windowByte s.txFrame i)
  | .rxbuf i => some (windowByte s.rxFrame i)
  | .reserved => none

/-- The little-endian word at an aligned buffer offset (20_memory.md R53). -/
def State.bufferWord (s : State) (off : BitVec 10) : Option Word :=
  match s.bufferByte off, s.bufferByte (off + 1), s.bufferByte (off + 2), s.bufferByte (off + 3) with
  | some b0, some b1, some b2, some b3 => some (le32 b0 b1 b2 b3)
  | _, _, _, _ => none

/-- The answer to a buffer read of `n` bytes; none where a PBUF byte of it is unwritten (20_memory.md R52, R53). -/
def State.bufferRead (s : State) (off : BitVec 10) (n : Nat) : Option BusResponse :=
  if n = 1 then (s.bufferByte off).map .byteData else (s.bufferWord off).map .wordData

/-- REQ_HDR takes its three fields from the word, v[31:25] ignored (20_memory.md R54). -/
def State.writeReqHdr (s : State) (v : Word) : State :=
  { s with reqSlave := v.extractLsb' 0 8, reqFc := v.extractLsb' 8 8, reqPlen := v.extractLsb' 16 9 }

/-- REQ_ARG takes its two fields from the word (20_memory.md R54). -/
def State.writeReqArg (s : State) (v : Word) : State :=
  { s with reqAddr := v.extractLsb' 0 16, reqCount := v.extractLsb' 16 16 }

/-- TIMEOUT takes v[15:0], v[31:16] ignored (20_memory.md R54). -/
def State.writeTimeout (s : State) (v : Word) : State := { s with timeoutCfg := v.extractLsb' 0 16 }

/-- PBUF takes v[7:0] for a byte access, four bytes little-endian for a word access (20_memory.md R57), as far as its
PBUF_CAPACITY reaches (00_scope.md R9). -/
def State.writePbuf (s : State) (i : Byte) (n : Nat) (v : Word) : State :=
  { s with
    pbuf :=
      if n = 1 then s.pbuf.store s.cfg.pbufCapacity i.toNat (byteOf v 0)
      else s.pbuf.storeWord s.cfg.pbufCapacity i.toNat v }

/-- The first `n` payload bytes, or none if one of them is unwritten (40_crc.md R81, 41_frame_codec.md R95). -/
def State.payload (s : State) (n : Nat) : Option (List Byte) := s.pbuf.readRun 0 n

end Sys2Proof.Machine
end

