-- ==== Sys2Proof/Machine/BuildCommand.lean ====
section
/-! DEFINITION. The BUILD command (41_frame_codec.md R86, R87, R95). -/

namespace Sys2Proof.Machine

/-- The built frame becomes `f`, none of it sent (R95). -/
def State.setFrame (s : State) (f : List Byte) : State := { s with txFrame := f, txIdx := 0 }

/-- The request frame of the operand registers and a payload (R95). -/
def State.requestFrame (s : State) (payload : List Byte) : List Byte :=
  encodeRequest s.reqSlave s.reqFc s.reqAddr s.reqCount payload

/-- BUILD (R95): Busy, LengthExceeded, TxOverflow in that order (60_exceptions.md R123); the last two leave no frame. -/
def execBuild (s : State) : Result :=
  if s.state ≠ .idle then .next (s.report .busy)
  else if s.cfg.maxCount < s.reqCount.toNat then .next ((s.setFrame []).report .lengthExceeded)
  else if s.cfg.txCapacity - Config.frameOverhead < s.reqPlen.toNat then .next ((s.setFrame []).report .txOverflow)
  else
    match s.payload s.reqPlen.toNat with
    | none => .fault .uninitPayload
    | some bytes => .next ((s.setFrame (s.requestFrame bytes)).report .ok)

end Sys2Proof.Machine
end

