-- ==== Sys2Proof/Machine/CrcCommands.lean ====
section
/-! DEFINITION. The host's checksum commands (40_crc.md R79 to R82). Legal in every engine state. -/

namespace Sys2Proof.Machine

/-- CRC_INIT (R79). -/
def execCrcInit (s : State) : Result := .next ((s.setCrc crcInitial).report .ok)

/-- CRC_FEED (R80). -/
def execCrcFeed (byte : Byte) (s : State) : Result := .next ((s.setCrc (crcByte s.crcAcc byte)).report .ok)

/-- CRC_PBUF (R81). -/
def execCrcPbuf (n : BitVec 9) (s : State) : Result :=
  match s.payload n.toNat with
  | none => .fault .uninitPayload
  | some bytes => .next ((s.setCrc (crc16 bytes)).report .ok)

end Sys2Proof.Machine
end

