-- ==== Sys2Proof/Machine/ResponseLength.lean ====
section
/-! DEFINITION. RESP_LEN, the expected response length (00_scope.md R10; 41_frame_codec.md section 4). -/

namespace Sys2Proof.Machine

/-- The default table (R96). The spec takes the lengths from general knowledge (notes/assumptions/9.md). -/
def defaultRespLen (fc : Byte) (count : Half) : Option Nat :=
  if fc = 0x01#8 ∨ fc = 0x02#8 then some (5 + (count.toNat + 7) / 8)
  else if fc = 0x03#8 ∨ fc = 0x04#8 then some (5 + 2 * count.toNat)
  else if fc = 0x05#8 ∨ fc = 0x06#8 ∨ fc = 0x0F#8 ∨ fc = 0x10#8 then some 8
  else none

/-- RESP_LEN of a machine: a total function of (fc, count) (R10, R97). -/
def respLen (cfg : Config) (fc : Byte) (count : Half) : Option Nat :=
  match cfg.respLenOverride.find? (fun e => e.fc == fc && e.count == count) with
  | some e => e.len
  | none => defaultRespLen fc count

end Sys2Proof.Machine
end

