-- ==== Sys2Proof/Machine/Transaction.lean ====
section
/-! DEFINITION. The Bus Transaction Engine (42_transaction.md): START, TxDone, RxByte, Tick. -/

namespace Sys2Proof.Machine

/-- A transaction expecting `len` response bytes begins (R100). -/
def State.beginTransaction (s : State) (len : Nat) : State :=
  { s with
    state := .transmitting, txIdx := 0, rxFrame := [], rxExpect := len, rxOverrun := false, ticks := 0,
    done := false, txnResult := .none }

/-- START (R100): Busy, NoFrame, UnsupportedFunction in that order (60_exceptions.md R123). -/
def execStart (s : State) : Result :=
  if s.state ≠ .idle then .next (s.report .busy)
  else if s.txFrame = [] then .next (s.report .noFrame)
  else
    match respLen s.cfg (fcOf s.txFrame) (countOf s.txFrame) with
    | none => .next (s.report .unsupportedFunction)
    | some len => .next ((s.beginTransaction len).report .ok)

/-- The last byte has left: the timeout clock starts (R102, R103). -/
def State.awaitResponse (s : State) : State :=
  { s with txIdx := s.txIdx + 1, state := .awaitingResponse, ticks := 0, toLatched := s.timeoutCfg }

/-- TxDone (R102); nothing outside Transmitting (R104). -/
def execTxDone (s : State) : Result :=
  if s.state ≠ .transmitting then .next s
  else if s.txIdx + 1 < s.txFrame.length then .next s.advanceTx
  else .next s.awaitResponse

/-- `complete(rx)` (R108): the checksum decides, and a mismatch discards the frame. -/
def State.complete (s : State) (rx : List Byte) : State :=
  match parse rx with
  | .ok _ => s.endTransaction .complete rx
  | .crcError => s.endTransaction .crcError []

/-- RxByte (R106); dropped outside AwaitingResponse (R111) and when the buffer is full (R107). -/
def execRxByte (b : Byte) (s : State) : Result :=
  if s.state ≠ .awaitingResponse then .next s
  else if s.rxFrame.length < s.cfg.rxCapacity then
    if (s.rxFrame ++ [b]).length = s.rxExpect then .next (s.complete (s.rxFrame ++ [b]))
    else .next (s.setRx (s.rxFrame ++ [b]))
  else .next s.markOverrun

/-- The window in ticks: 0 acts as 1 (R112). -/
def State.window (s : State) : Nat := max s.toLatched.toNat 1

/-- The tick count takes `t` (R112); it fits, since `t` is at most the window (notes/assumptions/10.md). -/
def State.setTicks (s : State) (t : Nat) : State := { s with ticks := BitVec.ofNat 16 t }

/-- Tick (R112); nothing outside AwaitingResponse (R114). -/
def execTick (s : State) : Result :=
  if s.state ≠ .awaitingResponse then .next s
  else if s.window ≤ s.ticks.toNat + 1 then .next ((s.setTicks (s.ticks.toNat + 1)).endTransaction .timedOut [])
  else .next (s.setTicks (s.ticks.toNat + 1))

end Sys2Proof.Machine
end

