-- ==== Sys2Proof/Machine/HostBus.lean ====
section
/-! DEFINITION. The host's bus accesses (20_memory.md R45 to R57) and the command write (30_encoding.md R70). -/

namespace Sys2Proof.Machine

/-- `execCmd(s, v)` (30_encoding.md R70). The decoder yields command rows only; a word it refuses is IllegalCommand
(R69), and so is the rest of the match, which it never reaches. -/
def execCommandWord (v : Word) (s : State) : Result :=
  match decodeCommand v with
  | .ok .crcInit => execCrcInit s
  | .ok (.crcFeed byte) => execCrcFeed byte s
  | .ok (.crcPbuf n) => execCrcPbuf n s
  | .ok .build => execBuild s
  | .ok .start => execStart s
  | .ok (.hostRead _ _) => .next (s.report .illegalCommand)
  | .ok (.hostWrite _ _ _) => .next (s.report .illegalCommand)
  | .ok .txDone => .next (s.report .illegalCommand)
  | .ok (.rxByte _) => .next (s.report .illegalCommand)
  | .ok .tick => .next (s.report .illegalCommand)
  | .ok .reset => .next (s.report .illegalCommand)
  | .error _ => .next (s.report .illegalCommand)

/-- A buffer read, or the fault of an unwritten PBUF byte (20_memory.md R52, R53). -/
def readBuffer (off : BitVec 10) (n : Nat) (s : State) : Result :=
  match s.bufferRead off n with
  | none => .fault .uninitPayload
  | some r => .next (s.respond r)

/-- HOST_READ (20_memory.md R50 to R53): the answer to the host is all that changes. -/
def execHostRead (off : BitVec 10) (n : Nat) (s : State) : Result :=
  if accessAccepted off n then
    match locate off with
    | .register r => .next (s.respond (.wordData (s.readReg r)))
    | .pbuf _ => readBuffer off n s
    | .txbuf _ => readBuffer off n s
    | .rxbuf _ => readBuffer off n s
    | .reserved => .next (s.respond .busError)
  else .next (s.respond .busError)

/-- An accepted write to a register (20_memory.md R54 to R56; read-only ones ignore it, R55). -/
def writeRegister (r : Reg) (v : Word) (s : State) : Result :=
  match r with
  | .cmd => execCommandWord v s
  | .status => .next (s.respond .written)
  | .crc => .next (s.respond .written)
  | .reqHdr => .next ((s.writeReqHdr v).respond .written)
  | .reqArg => .next ((s.writeReqArg v).respond .written)
  | .timeout => .next ((s.writeTimeout v).respond .written)
  | .txInfo => .next (s.respond .written)
  | .rxInfo => .next (s.respond .written)
  | .ticks => .next (s.respond .written)

/-- HOST_WRITE (20_memory.md R50, R54 to R57). -/
def execHostWrite (off : BitVec 10) (n : Nat) (v : Word) (s : State) : Result :=
  if accessAccepted off n then
    match locate off with
    | .register r => writeRegister r v s
    | .pbuf i => .next ((s.writePbuf i n v).respond .written)
    | .txbuf _ => .next (s.respond .written)
    | .rxbuf _ => .next (s.respond .written)
    | .reserved => .next (s.respond .busError)
  else .next (s.respond .busError)

end Sys2Proof.Machine
end

