-- ==== Sys2Proof/Machine/ResetEvent.lean ====
section
/-! DEFINITION. The Reset event (70_reset_and_hazards.md R131). -/

namespace Sys2Proof.Machine

/-- Every field of the block state takes its reset value (10_state.md R44). The parameters, the agents' pending events
and the last bus answer are no block state and stay (notes/assumptions/7.md). -/
def State.afterReset (s : State) : State :=
  { State.reset with cfg := s.cfg, timeoutCfg := s.cfg.timeoutReset, inputs := s.inputs, busResp := s.busResp }

/-- Reset, from any state in one step (R131). -/
def execReset (s : State) : Result := .next s.afterReset

end Sys2Proof.Machine
end

