-- ==== Sys2Proof/Machine/Dispatch.lean ====
section
/-! DEFINITION. The meaning of every instruction: one arm per constructor of Instr. -/

namespace Sys2Proof.Machine

def exec (i : Instr) (s : State) : Host.Outcome State Fault Refusal :=
  match i with
  | .crcInit => Sys2Proof.Machine.execCrcInit s
  | .crcFeed byte => Sys2Proof.Machine.execCrcFeed byte s
  | .crcPbuf n => Sys2Proof.Machine.execCrcPbuf n s
  | .build => Sys2Proof.Machine.execBuild s
  | .start => Sys2Proof.Machine.execStart s
  | .hostRead off n => Sys2Proof.Machine.execHostRead off n s
  | .hostWrite off n v => Sys2Proof.Machine.execHostWrite off n v s
  | .txDone => Sys2Proof.Machine.execTxDone s
  | .rxByte b => Sys2Proof.Machine.execRxByte b s
  | .tick => Sys2Proof.Machine.execTick s
  | .reset => Sys2Proof.Machine.execReset s

end Sys2Proof.Machine
end

