-- ==== Sys2Proof/Machine/Inputs.lean ====
section
/-! DEFINITION. How an agent's event becomes an instruction: the block's address decode (20_memory.md R45) and the
command decoder on a word write to CMD (R56). -/

namespace Sys2Proof.Machine

/-- The offset of a bus address in the window, or none outside it (20_memory.md R45). -/
def windowOffset (cfg : Config) (addr : Nat) : Option (BitVec 10) :=
  if cfg.base ≤ addr ∧ addr < cfg.base + Config.windowSize then some (BitVec.ofNat 10 (addr - cfg.base)) else none

/-- A host write at an offset: a legal command word written to CMD is that command, anything else is HOST_WRITE. -/
def fetchWrite (off : BitVec 10) (n : Nat) (v : Word) : Instr :=
  if off = 0 ∧ n = 4 then (commandOf v).getD (.hostWrite off n v) else .hostWrite off n v

/-- The instruction an event stands for; none for a bus access that is not the block's (R45). -/
def fetchInput (cfg : Config) : Input → Option Instr
  | .busRead addr n => (windowOffset cfg addr).map fun off => .hostRead off n
  | .busWrite addr n v => (windowOffset cfg addr).map fun off => fetchWrite off n v
  | .txDone => some .txDone
  | .rxByte b => some (.rxByte b)
  | .tick => some .tick
  | .reset => some .reset

/-- The host's word write to CMD of a command's word (30_encoding.md R62). -/
def commandInput (cfg : Config) (i : Instr) : Input := .busWrite cfg.base 4 ((encode i).getD 0)

/-- The event by which an agent issues an instruction. -/
def inputOf (cfg : Config) : Instr → Input
  | .crcInit => commandInput cfg .crcInit
  | .crcFeed byte => commandInput cfg (.crcFeed byte)
  | .crcPbuf n => commandInput cfg (.crcPbuf n)
  | .build => commandInput cfg .build
  | .start => commandInput cfg .start
  | .hostRead off n => .busRead (cfg.base + off.toNat) n
  | .hostWrite off n v => .busWrite (cfg.base + off.toNat) n v
  | .txDone => .txDone
  | .rxByte b => .rxByte b
  | .tick => .tick
  | .reset => .reset

/-- The state whose next event is the host's write of `w` to CMD. -/
def State.withCommandWrite (s : State) (w : Word) : State :=
  s.withInputs (.busWrite s.cfg.base 4 w :: s.inputs)

end Sys2Proof.Machine
end

