-- ==== Sys2Proof/Machine/Step.lean ====
section
/-! DEFINITION. One step takes one event (00_scope.md R16). -/

namespace Sys2Proof.Machine

/-- Take the next pending event. A bus access outside the window is not the block's and changes no field (20_memory.md
R45). With no event pending nothing happens (70_reset_and_hazards.md R133; notes/assumptions/2.md). -/
def step (s : State) : Host.Outcome State Fault Refusal :=
  match s.inputs with
  | [] => .next s
  | e :: rest =>
    match fetchInput s.cfg e with
    | none => .next (s.withInputs rest)
    | some i => exec i (s.withInputs rest)

/-- The state whose next event is the host's write to CMD of the word with these bits (notes/assumptions/3.md). -/
def State.withFetchWord (s : State) (nbits w : Nat) : State := s.withCommandWrite (tableWord nbits w)

end Sys2Proof.Machine
end

