-- ==== Sys2Proof/Machine/Timing.lean ====
section
/-! DEFINITION. The response window in real time (70_reset_and_hazards.md R144): information only, no step depends on
it. Times are in the unit of `Config.tickPeriodUs`. -/

namespace Sys2Proof.Machine

/-- How long after the entry into AwaitingResponse the expiring Tick of a window of `T` ticks comes, when the first Tick
comes `phase` after it (0 < phase ≤ TICK_PERIOD). -/
def expiryDelay (cfg : Config) (T phase : Nat) : Nat := phase + (max T 1 - 1) * cfg.tickPeriodUs

/-- The TIMEOUT setting that guarantees a window of at least `W`: ⌈W / P⌉ + 1 (R144). -/
def leastWindowSetting (cfg : Config) (W : Nat) : Nat := (W + cfg.tickPeriodUs - 1) / cfg.tickPeriodUs + 1

end Sys2Proof.Machine
end

