-- ==== Sys2Proof/Safety.lean ====
section
/-! DEFINITION. What claims about the machine are stated in: the parameters' constraints, the invariants of
10_state.md R43, runs, the command a step issues, and the duties of the agents outside the block. -/

namespace Sys2Proof.Machine

/-- The ranges the spec gives the parameters: RX_CAPACITY in 4..256 (00_scope.md R7), MAX_COUNT at most 65535
(90_conflicts.md C6), RESP_LEN in 4..511 for every count up to MAX_COUNT (41_frame_codec.md R97). TX_CAPACITY lies in
8..256, since a frame has at least 8 bytes and TXBUF shows 256, and PBUF_CAPACITY is at most the 256 bytes of the PBUF
window (DEDUCED, notes/assumptions/4.md). -/
structure ConfigOk (cfg : Config) : Prop where
  rxCapacity : 4 ≤ cfg.rxCapacity ∧ cfg.rxCapacity ≤ 256
  txCapacity : 8 ≤ cfg.txCapacity ∧ cfg.txCapacity ≤ 256
  pbufCapacity : cfg.pbufCapacity ≤ 256
  maxCount : cfg.maxCount ≤ 65535
  respLen : ∀ fc count len, count.toNat ≤ cfg.maxCount → respLen cfg fc count = some len → 4 ≤ len ∧ len ≤ 511

/-- The invariants of 10_state.md R43, (a) to (j). -/
structure Rule43 (s : State) : Prop where
  a : s.txFrame = [] ∨ (8 ≤ s.txFrame.length ∧ s.txFrame.length ≤ s.cfg.txCapacity)
  b : s.txIdx ≤ s.txFrame.length ∧ (s.state = .transmitting → s.txIdx < s.txFrame.length)
  c : s.state ≠ .idle → s.txFrame ≠ []
  d : s.rxFrame.length ≤ s.cfg.rxCapacity ∧ (s.state = .awaitingResponse → s.rxFrame.length < s.rxExpect)
  e : s.state = .transmitting → s.rxFrame = [] ∧ s.ticks = 0 ∧ s.done = false ∧ s.txnResult = .none
  f : s.state = .awaitingResponse → s.ticks.toNat < max s.toLatched.toNat 1 ∧ s.done = false ∧ s.txnResult = .none
  g : s.done = true ↔ s.txnResult ≠ .none
  h : s.txnResult = .crcError ∨ s.txnResult = .timedOut → s.rxFrame = []
  i : s.txnResult = .complete → s.rxFrame.length = s.rxExpect
  j : s.rxOverrun = true → s.cfg.rxCapacity < s.rxExpect

/-- What every step keeps: R43, the parameters' constraints, PBUF's canonical form and capacity, and what R43 leaves to the step rules:
a built frame's count passed BUILD's limit (41_frame_codec.md R86), rxExpect fits its field and in a transaction is the
length RESP_LEN gives the frame (42_transaction.md R100), a built frame is valid (R94), and a Complete outcome leaves a
validated frame (42_transaction.md R109). -/
structure Inv (s : State) : Prop where
  config : ConfigOk s.cfg
  pbuf : s.pbuf.wf
  pbufInside : s.pbuf.within s.cfg.pbufCapacity
  rule43 : Rule43 s
  frameCount : s.txFrame ≠ [] → (countOf s.txFrame).toNat ≤ s.cfg.maxCount
  expectFits : s.rxExpect < 512
  expectIsRespLen : s.state ≠ .idle → respLen s.cfg (fcOf s.txFrame) (countOf s.txFrame) = some s.rxExpect
  frameValid : s.txFrame ≠ [] → parse s.txFrame ≠ .crcError
  responseValid : s.txnResult = .complete → parse s.rxFrame ≠ .crcError

/-- `k` steps, stopping at the first fault or refusal. -/
def runSteps : Nat → State → Result
  | 0, s => .next s
  | k + 1, s =>
    match step s with
    | .next t => runSteps k t
    | .fault r => .fault r
    | .refused r => .refused r

/-- Every block field has the value of 10_state.md R44, TIMEOUT's being the parameter of 00_scope.md R8. -/
structure AtReset (timeout : Half) (s : State) : Prop where
  engine : s.state = .idle ∧ s.de = false
  checksum : s.crcAcc = 0xFFFF#16
  request : s.reqSlave = 0 ∧ s.reqFc = 0 ∧ s.reqPlen = 0 ∧ s.reqAddr = 0 ∧ s.reqCount = 0
  timeoutCfg : s.timeoutCfg = timeout
  payload : ∀ a, s.pbuf.read a = none
  transmit : s.txFrame = [] ∧ s.txIdx = 0
  receive : s.rxFrame = [] ∧ s.rxExpect = 0 ∧ s.rxOverrun = false
  clock : s.ticks = 0 ∧ s.toLatched = 0
  outcome : s.done = false ∧ s.txnResult = .none
  command : s.cmdStatus = .ok

/-- The state after reset under any parameters, with any events pending. -/
def State.poweredUp (cfg : Config) (l : List Input) : State :=
  { State.reset with cfg := cfg, timeoutCfg := cfg.timeoutReset, inputs := l }

/-- A word read of the offset returns `w` and changes nothing but the answer on the bus. -/
def ReadsWord (s : State) (off : BitVec 10) (w : Word) : Prop :=
  exec (.hostRead off 4) s = .next { s with busResp := .wordData w }

/-- A byte read of the offset returns `b` and changes nothing but the answer on the bus. -/
def ReadsByte (s : State) (off : BitVec 10) (b : Byte) : Prop :=
  exec (.hostRead off 1) s = .next { s with busResp := .byteData b }

/-- The write completes without error and changes no field of the block. -/
def WriteIgnored (s : State) (off : BitVec 10) (n : Nat) (v : Word) : Prop :=
  exec (.hostWrite off n v) s = .next { s with busResp := .written }

/-- Apply a function to the next state of an outcome. -/
def mapNext (f : State → State) : Result → Result
  | .next t => .next (f t)
  | .fault r => .fault r
  | .refused r => .refused r

/-- The command an instruction issues: itself, or the legal word a word write puts into CMD (20_memory.md R56). -/
def issuedCommand : Instr → Option Instr
  | .crcInit => some .crcInit
  | .crcFeed byte => some (.crcFeed byte)
  | .crcPbuf n => some (.crcPbuf n)
  | .build => some .build
  | .start => some .start
  | .hostRead _ _ => none
  | .hostWrite off n v => if off = 0 ∧ n = 4 then commandOf v else none
  | .txDone => none
  | .rxByte _ => none
  | .tick => none
  | .reset => none

/-- A write to CMD: a command, or any word written there (10_state.md R29). -/
def writesCmd : Instr → Bool
  | .crcInit => true
  | .crcFeed _ => true
  | .crcPbuf _ => true
  | .build => true
  | .start => true
  | .hostRead _ _ => false
  | .hostWrite off n _ => off == 0 && n == 4
  | .txDone => false
  | .rxByte _ => false
  | .tick => false
  | .reset => false

/-- The line agent's duty at a step: it reports TxDone only for an offered byte (70_reset_and_hazards.md R139). The
step does not require it (notes/assumptions/11.md). -/
def LineDuty (s : State) : Prop := s.inputs.head? = some .txDone → s.txOut ≠ none

end Sys2Proof.Machine
end

