-- ==== Sys2Proof/Certificates/Slice0/Obligations.lean ====
section
/-! DEFINITION. The statements for the provers, from the numbered rules of spec/. What they say of `busResp` is how this
model shows the answer a rule gives to the host (data, completion, BusError; notes/assumptions/6.md), and of `inputs` how it
holds the agents' events (notes/assumptions/2.md). -/

open Sys2Proof Sys2Proof.Machine

/-! ### Reset and the invariants -/

/-- R131, R44: from any state one Reset gives every block field its reset value, and the registers read as R44 says;
`State.reset` has those values, with the default TIMEOUT of 200 ticks. -/
def Obligations.ResetRestoresEveryField : Prop :=
  (∀ s : State, ∃ t : State, exec .reset s = .next t ∧ AtReset s.cfg.timeoutReset t ∧
    ReadsWord t 0x004 0 ∧ ReadsWord t 0x008 0x0000FFFF ∧ ReadsWord t 0x00C 0 ∧ ReadsWord t 0x010 0 ∧
    ReadsWord t 0x018 0 ∧ ReadsWord t 0x01C 0 ∧ ReadsWord t 0x020 0 ∧
    (s.cfg.timeoutReset = 200#16 → ReadsWord t 0x014 0x000000C8) ∧
    ∀ off : BitVec 10, 0x200 ≤ off.toNat → ReadsByte t off 0) ∧
  AtReset 200#16 State.reset

/-- After a Reset nothing of the block state before it is left: states that agree on the parameters, the pending events
and the last bus answer become one state, which has kept those three. That they are kept is the model's own choice
(notes/assumptions/7.md); that nothing else is, is R131's "every field". -/
def Obligations.ResetForgetsTheBlockState : Prop :=
  ∀ s u : State, s.cfg = u.cfg → s.inputs = u.inputs → s.busResp = u.busResp →
    ∃ t, exec .reset s = .next t ∧ exec .reset u = .next t ∧
      t.cfg = s.cfg ∧ t.inputs = s.inputs ∧ t.busResp = s.busResp

/-- R132: a Reset releases DE and offers no further byte; a late TxDone or response byte is ignored; no outcome is
reported. Nothing else brings an outstanding transaction to Idle without an outcome. -/
def Obligations.ResetAbandonsTransaction : Prop :=
  (∀ s t : State, exec .reset s = .next t →
    t.state = .idle ∧ t.de = false ∧ t.txOut = none ∧ t.rxFrame = [] ∧ t.done = false ∧ t.txnResult = .none ∧
      exec .txDone t = .next t ∧ ∀ b, exec (.rxByte b) t = .next t) ∧
  ∀ (i : Instr) (s t : State), s.state ≠ .idle → exec i s = .next t → t.state = .idle → i ≠ .reset →
    t.done = true ∧ t.txnResult ≠ .none

/-- The invariant holds after reset, under every configuration that meets the parameters' constraints (the ranges
of TX_CAPACITY and PBUF_CAPACITY are DEDUCED, notes/assumptions/4.md). -/
def Obligations.InvariantHoldsAfterReset : Prop :=
  Inv State.reset ∧ ∀ (cfg : Config) (l : List Input), ConfigOk cfg → Inv (State.poweredUp cfg l)

/-- Every step from every state that meets the invariant gives a state that meets it. -/
def Obligations.EveryStepKeepsInvariant : Prop :=
  ∀ s t : State, Inv s → step s = .next t → Inv t

/-- R43: every reachable state satisfies (a) to (j), under every configuration that meets the parameters' constraints and
every order of events. The ranges of TX_CAPACITY and PBUF_CAPACITY in them are DEDUCED (notes/assumptions/4.md). -/
def Obligations.ReachableStatesSatisfyRule43 : Prop :=
  ∀ (cfg : Config) (l : List Input) (k : Nat) (t : State),
    ConfigOk cfg → runSteps k (State.poweredUp cfg l) = .next t →
    (t.txFrame = [] ∨ (8 ≤ t.txFrame.length ∧ t.txFrame.length ≤ t.cfg.txCapacity)) ∧
    (t.txIdx ≤ t.txFrame.length ∧ (t.state = .transmitting → t.txIdx < t.txFrame.length)) ∧
    (t.state ≠ .idle → t.txFrame ≠ []) ∧
    (t.rxFrame.length ≤ t.cfg.rxCapacity ∧ (t.state = .awaitingResponse → t.rxFrame.length < t.rxExpect)) ∧
    (t.state = .transmitting → t.rxFrame = [] ∧ t.ticks = 0 ∧ t.done = false ∧ t.txnResult = .none) ∧
    (t.state = .awaitingResponse →
      t.ticks.toNat < max t.toLatched.toNat 1 ∧ t.done = false ∧ t.txnResult = .none) ∧
    (t.done = true ↔ t.txnResult ≠ .none) ∧
    (t.txnResult = .crcError ∨ t.txnResult = .timedOut → t.rxFrame = []) ∧
    (t.txnResult = .complete → t.rxFrame.length = t.rxExpect) ∧
    (t.rxOverrun = true → t.cfg.rxCapacity < t.rxExpect)

/-- 90_conflicts.md C9: with the default RESP_LEN table MAX_COUNT may be raised to 253 and no further. -/
def Obligations.DefaultTableServesCountsUpTo253 : Prop :=
  ∀ m : Nat, ConfigOk { Config.specDefault with maxCount := m } ↔ m ≤ 253

/-- R10: RESP_LEN is an arbitrary total function of function code and count; every such function is some
configuration's. -/
def Obligations.EveryResponseLengthFunctionIsConfigurable : Prop :=
  ∀ f : Byte → Half → Option Nat, ∃ cfg : Config, ∀ fc count, respLen cfg fc count = f fc count

/-- R96: the default table, for a machine whose RESP_LEN differs nowhere from it, and its ranges up to count 128. The
lengths are the spec's own general knowledge (notes/assumptions/9.md). -/
def Obligations.DefaultResponseLengths : Prop :=
  ∀ (cfg : Config) (count : Half), cfg.respLenOverride = [] →
    (∀ fc : Byte, fc = 0x01#8 ∨ fc = 0x02#8 →
      ∃ len, respLen cfg fc count = some len ∧ len = 5 + (count.toNat + 7) / 8 ∧
        (count.toNat ≤ 128 → 5 ≤ len ∧ len ≤ 21)) ∧
    (∀ fc : Byte, fc = 0x03#8 ∨ fc = 0x04#8 →
      ∃ len, respLen cfg fc count = some len ∧ len = 5 + 2 * count.toNat ∧
        (count.toNat ≤ 128 → 5 ≤ len ∧ len ≤ 261)) ∧
    (∀ fc : Byte, fc = 0x05#8 ∨ fc = 0x06#8 ∨ fc = 0x0F#8 ∨ fc = 0x10#8 → respLen cfg fc count = some 8) ∧
    ∀ fc : Byte, fc ∉ [0x01#8, 0x02#8, 0x03#8, 0x04#8, 0x05#8, 0x06#8, 0x0F#8, 0x10#8] →
      respLen cfg fc count = none

/-! ### Encoding, fetch and decode -/

/-- Decoding the word of a well-formed command gives the command back, whatever its operand. -/
def Obligations.DecodeOfEncodedCommand : Prop :=
  ∀ i : Instr, i.wellFormed = true → i.isCommand = true → ∃ w, encode i = some w ∧ decodeCommand w = .ok i

/-- A legal word is the word of the command it decodes to, and that command is well formed: each word has one meaning. -/
def Obligations.EncodeOfDecodedWord : Prop :=
  ∀ (w : Word) (i : Instr), decodeCommand w = .ok i → i.wellFormed = true ∧ i.isCommand = true ∧ encode i = some w

/-- The words 30_encoding.md R64 to R68 write out decode to the commands they stand for. -/
def Obligations.SpecWordsDecode : Prop :=
  decodeTableWord 32 0x01000000 = some .crcInit ∧ decodeTableWord 32 0x02000031 = some (.crcFeed 0x31) ∧
  decodeTableWord 32 0x03000100 = some (.crcPbuf 256) ∧ decodeTableWord 32 0x10000000 = some .build ∧
  decodeTableWord 32 0x11000000 = some .start ∧ decodeTableWord 32 0x02000100 = none ∧
  decodeTableWord 32 0x03000101 = none ∧ decodeTableWord 32 0x12000000 = none

/-- R70, R69: a word write to CMD runs the command of the first matching row, and a word of no row only sets cmdStatus to
IllegalCommand; the write itself completes. No two rows match one word, so the order of the tests does not matter. -/
def Obligations.CommandWriteRunsOpcodeMap : Prop :=
  ∀ v : Word,
    (∀ s : State,
      exec (.hostWrite 0x000 4 v) s =
        if v = 0x01000000#32 then exec .crcInit s
        else if v &&& 0xFFFFFF00#32 = 0x02000000#32 then exec (.crcFeed (v.extractLsb' 0 8)) s
        else if v &&& 0xFFFFFE00#32 = 0x03000000#32 ∧ (v.extractLsb' 0 9).toNat ≤ 256 then
          exec (.crcPbuf (v.extractLsb' 0 9)) s
        else if v = 0x10000000#32 then exec .build s
        else if v = 0x11000000#32 then exec .start s
        else .next { s with cmdStatus := .illegalCommand, busResp := .written }) ∧
    [v = 0x01000000#32, v &&& 0xFFFFFF00#32 = 0x02000000#32, v &&& 0xFFFFFE00#32 = 0x03000000#32,
      v = 0x10000000#32, v = 0x11000000#32].Pairwise (fun p q => ¬(p ∧ q))

/-- One step takes the next event: it runs the instruction the event decodes to, on the state without that event; the
word write of a command to CMD decodes to that command; every other event of the table decodes to its own instruction. -/
def Obligations.StepRunsDecodedInstruction : Prop :=
  (∀ (s : State) (e : Input) (rest : List Input) (i : Instr),
    s.inputs = e :: rest → fetchInput s.cfg e = some i → step s = exec i { s with inputs := rest }) ∧
  (∀ (s : State) (rest : List Input) (i : Instr) (w : Word),
    i.wellFormed = true → encode i = some w → s.inputs = .busWrite s.cfg.base 4 w :: rest →
      step s = exec i { s with inputs := rest }) ∧
  (∀ (cfg : Config) (i : Instr), i.wellFormed = true → issuedCommand i = none ∨ i.isCommand = true →
    fetchInput cfg (inputOf cfg i) = some i) ∧
  ∀ s : State, s.inputs = [] → step s = .next s

/-- R45: an access at BASE + off is the access at offset off; an access outside the window changes no field (the event is
taken off the list of pending ones, which is the model's own field, notes/assumptions/2.md). -/
def Obligations.BlockDecodesItsWindowOnly : Prop :=
  ∀ (s : State) (rest : List Input) (addr n : Nat) (v : Word),
    (¬(s.cfg.base ≤ addr ∧ addr < s.cfg.base + 0x400) →
      (s.inputs = .busRead addr n :: rest → step s = .next { s with inputs := rest }) ∧
      (s.inputs = .busWrite addr n v :: rest → step s = .next { s with inputs := rest })) ∧
    ∀ off : BitVec 10, addr = s.cfg.base + off.toNat →
      (s.inputs = .busRead addr n :: rest → step s = exec (.hostRead off n) { s with inputs := rest }) ∧
      (s.inputs = .busWrite addr n v :: rest → step s = exec (.hostWrite off n v) { s with inputs := rest })

/-! ### The host window -/

/-- R46 to R50: an access of another width, a misaligned word, a byte access to a register and any access to the hole are
answered BusError and change no field, the write to CMD among them; every other access is not. -/
def Obligations.RefusedAccessesAreBusErrors : Prop :=
  ∀ (s : State) (off : BitVec 10) (n : Nat) (v : Word),
    (((n ≠ 1 ∧ n ≠ 4) ∨ (n = 4 ∧ off.toNat % 4 ≠ 0) ∨ (n = 1 ∧ off.toNat < 0x100) ∨
        (0x024 ≤ off.toNat ∧ off.toNat ≤ 0x0FF)) →
      exec (.hostRead off n) s = .next { s with busResp := .busError } ∧
      exec (.hostWrite off n v) s = .next { s with busResp := .busError }) ∧
    (((n = 1 ∧ 0x100 ≤ off.toNat) ∨
        (n = 4 ∧ off.toNat % 4 = 0 ∧ (off.toNat ≤ 0x020 ∨ 0x100 ≤ off.toNat))) →
      (∀ t, exec (.hostRead off n) s = .next t → t.busResp ≠ .busError) ∧
      ∀ t, exec (.hostWrite off n v) s = .next t → t.busResp ≠ .busError)

/-- R32: STATUS shows every status field at its place, its reserved bits read 0, and a write to it is ignored. -/
def Obligations.StatusShowsEveryField : Prop :=
  ∀ s : State,
    (∃ w, ReadsWord s 0x004 w ∧
      w.extractLsb' 0 2 = (match s.state with | .idle => 0#2 | .transmitting => 1#2 | .awaitingResponse => 2#2) ∧
      w.getLsbD 2 = decide (s.state = .transmitting) ∧ w.getLsbD 3 = s.done ∧
      w.extractLsb' 4 2 =
        (match s.txnResult with | .none => 0#2 | .complete => 1#2 | .crcError => 2#2 | .timedOut => 3#2) ∧
      w.getLsbD 6 = s.rxOverrun ∧ w.getLsbD 7 = false ∧
      w.extractLsb' 8 4 =
        (match s.cmdStatus with
          | .ok => 0#4 | .lengthExceeded => 1#4 | .txOverflow => 2#4 | .busy => 3#4 | .noFrame => 4#4
          | .unsupportedFunction => 5#4 | .illegalCommand => 6#4) ∧
      w.extractLsb' 12 20 = 0#20) ∧
    (∀ v, WriteIgnored s 0x004 4 v) ∧ ReadsWord State.reset 0x004 0

/-- R33, R37, R38 (and the fields of R39): the read-only registers show the accumulator, the frame lengths and positions
and the tick counts at their places; writes to them are ignored; their reset values. -/
def Obligations.ReadOnlyRegistersShowTheState : Prop :=
  (∀ s : State, Inv s →
    (∃ w, ReadsWord s 0x008 w ∧ w.extractLsb' 0 16 = s.crcAcc ∧ w.extractLsb' 16 16 = 0#16) ∧
    (∃ w, ReadsWord s 0x018 w ∧ (w.extractLsb' 0 9).toNat = s.txFrame.length ∧ w.extractLsb' 9 7 = 0#7 ∧
      (w.extractLsb' 16 9).toNat = s.txIdx ∧ w.extractLsb' 25 6 = 0#6 ∧
      w.getLsbD 31 = decide (s.txFrame ≠ [])) ∧
    (∃ w, ReadsWord s 0x01C w ∧ (w.extractLsb' 0 9).toNat = s.rxFrame.length ∧ w.extractLsb' 9 7 = 0#7 ∧
      (w.extractLsb' 16 9).toNat = s.rxExpect ∧ w.extractLsb' 25 7 = 0#7) ∧
    (∃ w, ReadsWord s 0x020 w ∧ w.extractLsb' 0 16 = s.ticks ∧ w.extractLsb' 16 16 = s.toLatched)) ∧
  (∀ (s : State) (v : Word), WriteIgnored s 0x008 4 v ∧ WriteIgnored s 0x018 4 v ∧ WriteIgnored s 0x01C 4 v ∧
    WriteIgnored s 0x020 4 v) ∧
  ReadsWord State.reset 0x008 0x0000FFFF ∧ ReadsWord State.reset 0x018 0 ∧ ReadsWord State.reset 0x01C 0 ∧
  ReadsWord State.reset 0x020 0

/-- R54: a word write to REQ_HDR, REQ_ARG or TIMEOUT sets the fields of that register and no other field, in every engine
state. -/
def Obligations.OperandRegisterWrites : Prop :=
  ∀ (s : State) (v : Word),
    exec (.hostWrite 0x00C 4 v) s =
      .next { s with
        reqSlave := v.extractLsb' 0 8, reqFc := v.extractLsb' 8 8, reqPlen := v.extractLsb' 16 9,
        busResp := .written } ∧
    exec (.hostWrite 0x010 4 v) s =
      .next { s with reqAddr := v.extractLsb' 0 16, reqCount := v.extractLsb' 16 16, busResp := .written } ∧
    exec (.hostWrite 0x014 4 v) s = .next { s with timeoutCfg := v.extractLsb' 0 16, busResp := .written }

/-- R34, R35, R36: what is written to an operand register reads back, with the reserved bits 0; CMD reads 0 (R31). -/
def Obligations.OperandRegistersReadBack : Prop :=
  ∀ (s t : State) (v : Word),
    (exec (.hostWrite 0x00C 4 v) s = .next t → ReadsWord t 0x00C (v &&& 0x01FFFFFF#32)) ∧
    (exec (.hostWrite 0x010 4 v) s = .next t → ReadsWord t 0x010 v) ∧
    (exec (.hostWrite 0x014 4 v) s = .next t → ReadsWord t 0x014 (v &&& 0x0000FFFF#32)) ∧
    ReadsWord s 0x000 0

/-- R52: the byte a buffer offset reads as; an unwritten PBUF byte is the fault UninitPayload. -/
def Obligations.BufferByteReads : Prop :=
  ∀ (s : State) (off : BitVec 10),
    (0x100 ≤ off.toNat ∧ off.toNat < 0x200 →
      (∀ b, s.pbuf.read (off.toNat - 0x100) = some b → ReadsByte s off b) ∧
      (s.pbuf.read (off.toNat - 0x100) = none → exec (.hostRead off 1) s = .fault .uninitPayload)) ∧
    (0x200 ≤ off.toNat ∧ off.toNat < 0x300 → ReadsByte s off ((s.txFrame[off.toNat - 0x200]?).getD 0)) ∧
    (0x300 ≤ off.toNat → ReadsByte s off ((s.rxFrame[off.toNat - 0x300]?).getD 0))

/-- R53: an aligned buffer word is its four bytes little-endian, and it faults where one of them does. -/
def Obligations.BufferWordReads : Prop :=
  ∀ (s : State) (off : BitVec 10), 0x100 ≤ off.toNat → off.toNat % 4 = 0 →
    (∀ b0 b1 b2 b3 : Byte, ReadsByte s off b0 → ReadsByte s (off + 1) b1 → ReadsByte s (off + 2) b2 →
      ReadsByte s (off + 3) b3 →
      ReadsWord s off
        (b0.setWidth 32 ||| b1.setWidth 32 <<< 8 ||| b2.setWidth 32 <<< 16 ||| b3.setWidth 32 <<< 24)) ∧
    ((∃ k : Fin 4, exec (.hostRead (off + BitVec.ofNat 10 k) 1) s = .fault .uninitPayload) →
      exec (.hostRead off 4) s = .fault .uninitPayload)

/-- R55: an accepted write to a read-only register or buffer completes and changes no field. -/
def Obligations.ReadOnlyLocationsIgnoreWrites : Prop :=
  ∀ (s : State) (off : BitVec 10) (n : Nat) (v : Word),
    ((n = 4 ∧ off.toNat ∈ [0x004, 0x008, 0x018, 0x01C, 0x020]) ∨
      (0x200 ≤ off.toNat ∧ (n = 1 ∨ (n = 4 ∧ off.toNat % 4 = 0)))) → WriteIgnored s off n v

/-- R57: a PBUF write stores v[7:0], or the four bytes of v little-endian; every other PBUF byte reads as before and
every other field keeps its value, in every engine state. R57's buffer is the whole window: PBUF_CAPACITY is 256 (R26); a
smaller one is in `PbufWritesStayInsideTheBuffer`. -/
def Obligations.PbufWritesStoreTheirBytes : Prop :=
  ∀ (s : State) (off : BitVec 10) (v : Word), 256 ≤ s.cfg.pbufCapacity → 0x100 ≤ off.toNat → off.toNat < 0x200 →
    (∃ p : Memory, exec (.hostWrite off 1 v) s = .next { s with pbuf := p, busResp := .written } ∧
      ∀ a, p.read a = if a = off.toNat - 0x100 then some (v.extractLsb' 0 8) else s.pbuf.read a) ∧
    (off.toNat % 4 = 0 →
      ∃ p : Memory, exec (.hostWrite off 4 v) s = .next { s with pbuf := p, busResp := .written } ∧
        ∀ a, p.read a =
          if a = off.toNat - 0x100 then some (v.extractLsb' 0 8)
          else if a = off.toNat - 0x100 + 1 then some (v.extractLsb' 8 8)
          else if a = off.toNat - 0x100 + 2 then some (v.extractLsb' 16 8)
          else if a = off.toNat - 0x100 + 3 then some (v.extractLsb' 24 8)
          else s.pbuf.read a)

/-- R51, R59: reads change no field of the block, so however many reads are taken, every location goes on reading as it
did. -/
def Obligations.ReadsLeaveEveryReadUnchanged : Prop :=
  ∀ (s t : State) (l rest : List Input), s.inputs = l ++ rest → (∀ e ∈ l, ∃ addr n, e = .busRead addr n) →
    runSteps l.length s = .next t →
    t = { s with inputs := rest, busResp := t.busResp } ∧
      (∀ off w, ReadsWord s off w ↔ ReadsWord t off w) ∧ ∀ off b, ReadsByte s off b ↔ ReadsByte t off b

/-! ### The checksum unit -/

/-- R79: CRC_INIT, in every engine state; issuing it twice gives the same as once. -/
def Obligations.CrcInitSetsInitialValue : Prop :=
  ∀ s : State,
    exec .crcInit s = .next { s with crcAcc := 0xFFFF#16, cmdStatus := .ok, busResp := .written } ∧
    ∀ t, exec .crcInit s = .next t → exec .crcInit t = .next t

/-- R80: CRC_FEED folds its byte into the accumulator; CRC_INIT and then one CRC_FEED for each byte of a list leave the
list's checksum; a reserved bit makes the word illegal and leaves the accumulator. -/
def Obligations.CrcFeedAccumulatesTheChecksum : Prop :=
  (∀ (s : State) (b : Byte),
    exec (.crcFeed b) s = .next { s with crcAcc := crcByte s.crcAcc b, cmdStatus := .ok, busResp := .written }) ∧
  (∀ (s : State) (bytes : List Byte) (rest : List Input),
    s.inputs = (Instr.crcInit :: bytes.map Instr.crcFeed).map (inputOf s.cfg) ++ rest →
    runSteps (bytes.length + 1) s =
      .next { s with crcAcc := crc16 bytes, cmdStatus := .ok, busResp := .written, inputs := rest }) ∧
  ∀ (s : State) (v : Word), v.extractLsb' 24 8 = 0x02#8 → v.extractLsb' 8 16 ≠ 0#16 →
    exec (.hostWrite 0x000 4 v) s = .next { s with cmdStatus := .illegalCommand, busResp := .written }

/-- R81: CRC_PBUF leaves the checksum of the first N bytes of PBUF whatever the accumulator held; an unwritten byte among
them is the fault UninitPayload; N above 256 is illegal. -/
def Obligations.CrcPbufChecksumsTheBuffer : Prop :=
  (∀ (s : State) (n : BitVec 9) (bytes : List Byte), n.toNat ≤ 256 → bytes.length = n.toNat →
    (∀ k, k < n.toNat → s.pbuf.read k = bytes[k]?) →
    exec (.crcPbuf n) s = .next { s with crcAcc := crc16 bytes, cmdStatus := .ok, busResp := .written }) ∧
  (∀ (s : State) (n : BitVec 9), n.toNat ≤ 256 → (∃ k, k < n.toNat ∧ s.pbuf.read k = none) →
    exec (.crcPbuf n) s = .fault .uninitPayload) ∧
  ∀ (s : State) (n : BitVec 9), 256 < n.toNat →
    exec (.hostWrite 0x000 4 (0x03000000#32 ||| n.setWidth 32)) s =
      .next { s with cmdStatus := .illegalCommand, busResp := .written }

/-- R82: a checksum command changes the accumulator, cmdStatus and the bus answer alone; no other instruction but Reset
writes the accumulator, and none of them but a host read behaves differently for another value of it. -/
def Obligations.ChecksumUnitIsIndependent : Prop :=
  (∀ (i : Instr) (s t : State), (i = .crcInit ∨ (∃ b, i = .crcFeed b) ∨ ∃ n, i = .crcPbuf n) →
    exec i s = .next t → t = { s with crcAcc := t.crcAcc, cmdStatus := .ok, busResp := .written }) ∧
  ∀ (i : Instr) (s : State) (c : Half), i ≠ .reset →
    issuedCommand i ≠ some .crcInit → (∀ b, issuedCommand i ≠ some (.crcFeed b)) →
    (∀ n, issuedCommand i ≠ some (.crcPbuf n)) →
    (∀ t, exec i s = .next t → t.crcAcc = s.crcAcc) ∧
      ((∀ off n, i ≠ .hostRead off n) →
        exec i { s with crcAcc := c } = mapNext (fun t => { t with crcAcc := c }) (exec i s))

/-- R83: any single flipped bit changes the checksum. -/
def Obligations.SingleBitErrorsChangeTheChecksum : Prop :=
  ∀ (l : List Byte) (i k : Nat) (b : Byte), l[i]? = some b → k < 8 →
    crc16 (l.set i (b ^^^ (1#8 <<< k))) ≠ crc16 l

/-- R78: the check value, and V-CRC-1 to V-CRC-4 of 95_test_vectors.md. -/
def Obligations.ChecksumCheckValue : Prop :=
  crc16 [0x31, 0x32, 0x33, 0x34, 0x35, 0x36, 0x37, 0x38, 0x39] = 0x4B37#16 ∧ crc16 [] = 0xFFFF#16 ∧
  crcByte 0xFFFF#16 0x00#8 = 0x40BF#16 ∧ crcByte 0xFFFF#16 0x01#8 = 0x807E#16 ∧
  crcByte 0xFFFF#16 0xFF#8 = 0x00FF#16

/-- R84: the checksum over a list and its trailer is 0; and on every frame the test for 0 agrees with the receive path's
comparison of the recomputed code with the trailer. -/
def Obligations.ChecksumOverTrailerIsZero : Prop :=
  (∀ l : List Byte, crc16 (l ++ [lo (crc16 l), hi (crc16 l)]) = 0x0000#16) ∧
  ∀ bs : List Byte, 4 ≤ bs.length → (crc16 bs = 0x0000#16 ↔ ∃ r, parse bs = .ok r)

/-! ### The frame codec -/

/-- R72, R85: the layout of a request frame, byte by byte. -/
def Obligations.RequestFrameLayout : Prop :=
  ∀ (slave fc : Byte) (addr count : Half) (payload : List Byte),
    let f := encodeRequest slave fc addr count payload
    let P := payload.length
    f.length = 8 + P ∧ f[0]? = some slave ∧ f[1]? = some fc ∧
    f[2]? = some (addr.extractLsb' 8 8) ∧ f[3]? = some (addr.extractLsb' 0 8) ∧
    f[4]? = some (count.extractLsb' 8 8) ∧ f[5]? = some (count.extractLsb' 0 8) ∧
    (∀ j, j < P → f[6 + j]? = payload[j]?) ∧
    f[6 + P]? = some ((crc16 (f.take (6 + P))).extractLsb' 0 8) ∧
    f[7 + P]? = some ((crc16 (f.take (6 + P))).extractLsb' 8 8)

/-- R88, R89, R90: parse accepts exactly the lists of at least 4 bytes whose last two bytes are the checksum of all the
bytes before, low byte first, and reads the response's fields out of them. -/
def Obligations.ParseAcceptsExactlyValidFrames : Prop :=
  ∀ bs : List Byte,
    (∀ r : Response, parse bs = .ok r ↔
      ∃ (slave fc : Byte) (data : List Byte),
        bs = (slave :: fc :: data) ++
          [(crc16 (slave :: fc :: data)).extractLsb' 0 8, (crc16 (slave :: fc :: data)).extractLsb' 8 8] ∧
        r = { slave := slave, fc := fc, data := data, crc := crc16 (slave :: fc :: data) }) ∧
    (parse bs = .crcError ↔ ∀ r : Response, parse bs ≠ .ok r)

/-- R94, R91: a built frame parses, and its field views give back the five inputs. -/
def Obligations.RequestFrameRoundTrip : Prop :=
  ∀ (slave fc : Byte) (addr count : Half) (payload : List Byte),
    let f := encodeRequest slave fc addr count payload
    (∃ r, parse f = .ok r ∧ r.slave = slave ∧ r.fc = fc) ∧
    slaveOf f = slave ∧ fcOf f = fc ∧ addrOf f = addr ∧ countOf f = count ∧ payloadOf f = payload

/-- R95, R86, R87: BUILD encodes the operand registers and the payload, or reports the first of Busy, LengthExceeded and
TxOverflow, or faults on an unwritten payload byte. -/
def Obligations.BuildEncodesOrReports : Prop :=
  ∀ s : State,
    (s.state ≠ .idle → exec .build s = .next { s with cmdStatus := .busy, busResp := .written }) ∧
    (s.state = .idle → s.cfg.maxCount < s.reqCount.toNat →
      exec .build s =
        .next { s with txFrame := [], txIdx := 0, cmdStatus := .lengthExceeded, busResp := .written }) ∧
    (s.state = .idle → s.reqCount.toNat ≤ s.cfg.maxCount → s.cfg.txCapacity - 8 < s.reqPlen.toNat →
      exec .build s = .next { s with txFrame := [], txIdx := 0, cmdStatus := .txOverflow, busResp := .written }) ∧
    (s.state = .idle → s.reqCount.toNat ≤ s.cfg.maxCount → s.reqPlen.toNat ≤ s.cfg.txCapacity - 8 →
      (∃ k, k < s.reqPlen.toNat ∧ s.pbuf.read k = none) → exec .build s = .fault .uninitPayload) ∧
    ∀ payload : List Byte, s.state = .idle → s.reqCount.toNat ≤ s.cfg.maxCount →
      s.reqPlen.toNat ≤ s.cfg.txCapacity - 8 → payload.length = s.reqPlen.toNat →
      (∀ k, k < s.reqPlen.toNat → s.pbuf.read k = payload[k]?) →
      exec .build s =
        .next { s with
          txFrame := encodeRequest s.reqSlave s.reqFc s.reqAddr s.reqCount payload, txIdx := 0,
          cmdStatus := .ok, busResp := .written }

/-! ### The transaction engine -/

/-- R100: START begins the transaction, or reports the first of Busy, NoFrame and UnsupportedFunction and changes nothing
else. -/
def Obligations.StartBeginsOrReports : Prop :=
  ∀ s : State,
    (s.state ≠ .idle → exec .start s = .next { s with cmdStatus := .busy, busResp := .written }) ∧
    (s.state = .idle → s.txFrame = [] →
      exec .start s = .next { s with cmdStatus := .noFrame, busResp := .written }) ∧
    (s.state = .idle → s.txFrame ≠ [] → respLen s.cfg (fcOf s.txFrame) (countOf s.txFrame) = none →
      exec .start s = .next { s with cmdStatus := .unsupportedFunction, busResp := .written }) ∧
    ∀ len, s.state = .idle → s.txFrame ≠ [] →
      respLen s.cfg (fcOf s.txFrame) (countOf s.txFrame) = some len →
      ∃ t, exec .start s = .next t ∧
        t = { s with
          state := .transmitting, txIdx := 0, rxFrame := [], rxExpect := len, rxOverrun := false, ticks := 0,
          done := false, txnResult := .none, cmdStatus := .ok, busResp := .written } ∧
        t.de = true ∧ t.txOut = s.txFrame.head?

/-- R102, R104: TxDone offers the next byte, or after the last one enters AwaitingResponse with the clock at 0 and the
window latched; outside Transmitting it changes nothing. -/
def Obligations.TxDoneAdvancesTheFrame : Prop :=
  ∀ s : State,
    (s.state ≠ .transmitting → exec .txDone s = .next s) ∧
    (s.state = .transmitting → s.txIdx + 1 < s.txFrame.length →
      exec .txDone s = .next { s with txIdx := s.txIdx + 1 }) ∧
    (s.state = .transmitting → s.txFrame.length ≤ s.txIdx + 1 →
      ∃ t, exec .txDone s = .next t ∧
        t = { s with
          txIdx := s.txIdx + 1, state := .awaitingResponse, ticks := 0, toLatched := s.timeoutCfg } ∧
        t.de = false)

/-- R106, R108, R111: a byte taken in AwaitingResponse with room is stored; the byte that makes the length expected ends
the transaction Complete if the frame is valid and otherwise CrcError with the frame discarded; with no room it is dropped
and RX_OVERRUN set; in the other states it changes nothing. -/
def Obligations.RxByteAccumulatesAndCompletes : Prop :=
  ∀ (s : State) (b : Byte),
    (s.state ≠ .awaitingResponse → exec (.rxByte b) s = .next s) ∧
    (s.state = .awaitingResponse → s.cfg.rxCapacity ≤ s.rxFrame.length →
      exec (.rxByte b) s = .next { s with rxOverrun := true }) ∧
    (s.state = .awaitingResponse → s.rxFrame.length < s.cfg.rxCapacity → s.rxFrame.length + 1 ≠ s.rxExpect →
      exec (.rxByte b) s = .next { s with rxFrame := s.rxFrame ++ [b] }) ∧
    (s.state = .awaitingResponse → s.rxFrame.length < s.cfg.rxCapacity → s.rxFrame.length + 1 = s.rxExpect →
      ((∃ r, parse (s.rxFrame ++ [b]) = .ok r) →
        exec (.rxByte b) s =
          .next { s with rxFrame := s.rxFrame ++ [b], txnResult := .complete, state := .idle, done := true }) ∧
      (parse (s.rxFrame ++ [b]) = .crcError →
        exec (.rxByte b) s = .next { s with rxFrame := [], txnResult := .crcError, state := .idle, done := true }))

/-- R112, R114: Tick counts in AwaitingResponse and ends the transaction TimedOut at the window's last tick (a window of 0
acts as 1); in the other states it changes nothing. -/
def Obligations.TickCountsAndExpires : Prop :=
  ∀ s : State,
    (s.state ≠ .awaitingResponse → exec .tick s = .next s) ∧
    (s.state = .awaitingResponse → s.ticks.toNat + 1 < max s.toLatched.toNat 1 →
      exec .tick s = .next { s with ticks := s.ticks + 1 } ∧ (s.ticks + 1).toNat = s.ticks.toNat + 1) ∧
    (s.state = .awaitingResponse → max s.toLatched.toNat 1 ≤ s.ticks.toNat + 1 →
      exec .tick s =
        .next { s with
          ticks := s.ticks + 1, rxFrame := [], txnResult := .timedOut, state := .idle, done := true })

/-- R101: DE rises only in the step of a successful START, and falls only in the step of the TxDone that completes the
last byte, or of a Reset. -/
def Obligations.DirectionControl : Prop :=
  ∀ (i : Instr) (s t : State), Inv s → exec i s = .next t →
    (s.de = false → (t.de = true ↔ issuedCommand i = some .start ∧ t.cmdStatus = .ok)) ∧
    (s.de = true → (t.de = false ↔ (i = .txDone ∧ s.txIdx + 1 = s.txFrame.length) ∨ i = .reset))

/-- R117 and the transition summary of 42_transaction.md section 7: the only ways the engine changes its state. -/
def Obligations.EngineTransitions : Prop :=
  ∀ (i : Instr) (s t : State), Inv s → exec i s = .next t → t.state ≠ s.state →
    (s.state = .idle → t.state = .transmitting ∧ issuedCommand i = some .start ∧ s.txFrame ≠ [] ∧
      respLen s.cfg (fcOf s.txFrame) (countOf s.txFrame) = some t.rxExpect) ∧
    (s.state = .transmitting →
      (t.state = .awaitingResponse ∧ i = .txDone ∧ s.txIdx + 1 = s.txFrame.length) ∨
      (t.state = .idle ∧ i = .reset)) ∧
    (s.state = .awaitingResponse → t.state = .idle ∧
      ((∃ b, i = .rxByte b ∧ s.rxFrame.length + 1 = s.rxExpect ∧ (t.txnResult = .complete ∨ t.txnResult = .crcError)) ∨
        (i = .tick ∧ s.ticks.toNat + 1 = max s.toLatched.toNat 1 ∧ t.txnResult = .timedOut) ∨ i = .reset))

/-- R105: whatever else happens but a Reset, as long as fewer TxDones than bytes left have been taken the engine is
Transmitting with DE = 1 and offers exactly the next byte of the frame: the bytes go out in order, each once. Outside
Transmitting no byte is offered. -/
def Obligations.FrameBytesAreOfferedInOrder : Prop :=
  (∀ (s t : State) (l rest : List Input), Inv s → s.state = .transmitting → s.inputs = l ++ rest →
    Input.reset ∉ l → s.txIdx + l.count .txDone < s.txFrame.length → runSteps l.length s = .next t →
    t.state = .transmitting ∧ t.de = true ∧ t.txFrame = s.txFrame ∧ t.txIdx = s.txIdx + l.count .txDone ∧
      t.txOut = s.txFrame[s.txIdx + l.count .txDone]? ∧ t.txOut ≠ none) ∧
  ∀ s : State, s.state ≠ .transmitting → s.txOut = none

/-- R141, R103: the TxDone that accounts for the last byte of the frame ends the transmission, whatever came between: the
engine awaits the response with no tick counted, the window latched and the receive buffer empty. -/
def Obligations.LastTxDoneStartsTheWindow : Prop :=
  ∀ (s t : State) (l rest : List Input), Inv s → s.state = .transmitting → s.inputs = l ++ .txDone :: rest →
    Input.reset ∉ l → s.txIdx + l.count .txDone + 1 = s.txFrame.length → runSteps (l.length + 1) s = .next t →
    t.state = .awaitingResponse ∧ t.de = false ∧ t.txOut = none ∧ t.txIdx = s.txFrame.length ∧
      t.txFrame = s.txFrame ∧ t.ticks = 0 ∧ t.toLatched = t.timeoutCfg ∧ t.rxFrame = [] ∧ t.rxExpect = s.rxExpect

/-- R140: while the line reports no TxDone and no Reset comes, the engine stays in Transmitting with DE = 1, and BUILD and
START are refused Busy, for ever. -/
def Obligations.SilentLineHangsTransmission : Prop :=
  ∀ (s t : State) (l rest : List Input), s.state = .transmitting → s.inputs = l ++ rest →
    Input.reset ∉ l → Input.txDone ∉ l → runSteps l.length s = .next t →
    t.state = .transmitting ∧ t.de = true ∧ t.txIdx = s.txIdx ∧
      exec .build t = .next { t with cmdStatus := .busy, busResp := .written } ∧
      exec .start t = .next { t with cmdStatus := .busy, busResp := .written }

/-- R141: once the response is awaited, as many Ticks as the window has left end the transaction, whatever comes between
them, unless a Reset abandons it. -/
def Obligations.AwaitingEndsWithinTheWindow : Prop :=
  ∀ (s t : State) (l rest : List Input), Inv s → s.state = .awaitingResponse → s.inputs = l ++ rest →
    Input.reset ∉ l → max s.toLatched.toNat 1 ≤ s.ticks.toNat + l.count .tick → runSteps l.length s = .next t →
    ∃ (k : Nat) (u : State), k ≤ l.length ∧ runSteps k s = .next u ∧ u.state = .idle ∧ u.done = true ∧
      u.txnResult ≠ .none ∧ ∀ j, j < k → ∃ w, runSteps j s = .next w ∧ w.state = .awaitingResponse

/-- R113: if only Ticks come, the last one of the window ends the transaction TimedOut, whether no bytes or some had
arrived, with ELAPSED = max(LATCHED, 1), and a START in the very next step is accepted. -/
def Obligations.SilentSlaveTimesOut : Prop :=
  ∀ (s : State) (rest : List Input), Inv s → s.state = .awaitingResponse →
    s.inputs = List.replicate (max s.toLatched.toNat 1 - s.ticks.toNat) .tick ++ rest →
    ∃ t : State, runSteps (max s.toLatched.toNat 1 - s.ticks.toNat) s = .next t ∧
      t = { s with
        state := .idle, done := true, txnResult := .timedOut, rxFrame := [], ticks := t.ticks, inputs := rest } ∧
      t.ticks.toNat = max s.toLatched.toNat 1 ∧
      ∃ u, exec .start t = .next u ∧ u.cmdStatus = .ok ∧ u.state = .transmitting

/-- R115, R137: within a window only Tick moves the clock, nothing restarts it, and the latched length does not change, a
write to TIMEOUT included; toLatched is written only at the entry into AwaitingResponse and by Reset. -/
def Obligations.WindowIsOneSpan : Prop :=
  ∀ (i : Instr) (s t : State), Inv s → exec i s = .next t →
    (s.state = .awaitingResponse → t.state = .awaitingResponse →
      t.toLatched = s.toLatched ∧ t.ticks.toNat = s.ticks.toNat + (if i = .tick then 1 else 0)) ∧
    (i ≠ .reset → t.toLatched ≠ s.toLatched →
      s.state = .transmitting ∧ t.state = .awaitingResponse ∧ i = .txDone ∧ t.toLatched = s.timeoutCfg)

/-- R124: the last expected byte against the expiring Tick. Byte first: the outcome is the checksum's, and the Tick does
nothing. Tick first: TimedOut, and the byte is dropped. -/
def Obligations.LastByteAgainstExpiringTick : Prop :=
  ∀ (s : State) (b : Byte) (rest : List Input), s.state = .awaitingResponse →
    s.rxFrame.length < s.cfg.rxCapacity → s.rxFrame.length + 1 = s.rxExpect →
    s.ticks.toNat + 1 = max s.toLatched.toNat 1 →
    (s.inputs = .rxByte b :: .tick :: rest →
      ∃ t, runSteps 2 s = .next t ∧ runSteps 1 s = .next { t with inputs := .tick :: rest } ∧ t.state = .idle ∧
        t.ticks = s.ticks ∧
        (t.txnResult = .complete ∧ t.rxFrame = s.rxFrame ++ [b] ∨ t.txnResult = .crcError ∧ t.rxFrame = [])) ∧
    (s.inputs = .tick :: .rxByte b :: rest →
      ∃ t, runSteps 2 s = .next t ∧ runSteps 1 s = .next { t with inputs := .rxByte b :: rest } ∧ t.state = .idle ∧
        t.txnResult = .timedOut ∧ t.rxFrame = [])

/-- R107: a byte that finds the buffer full is dropped and RX_OVERRUN set, which happens only when the expected length
exceeds RX_CAPACITY; then the transaction can end only TimedOut (or be abandoned by Reset). -/
def Obligations.OverlongResponseEndsTimedOut : Prop :=
  (∀ (s : State) (b : Byte), Inv s → s.state = .awaitingResponse → s.rxFrame.length = s.cfg.rxCapacity →
    s.cfg.rxCapacity < s.rxExpect ∧ exec (.rxByte b) s = .next { s with rxOverrun := true }) ∧
  (∀ (i : Instr) (s t : State), Inv s → s.state = .awaitingResponse → s.cfg.rxCapacity < s.rxExpect →
    exec i s = .next t → i ≠ .reset →
    (t.state = .awaitingResponse ∧ s.cfg.rxCapacity < t.rxExpect ∧ (s.rxOverrun = true → t.rxOverrun = true)) ∨
      (t.state = .idle ∧ t.txnResult = .timedOut ∧ t.rxOverrun = s.rxOverrun)) ∧
  ∀ (i : Instr) (s t : State), exec i s = .next t → s.rxOverrun = true → t.rxOverrun = false →
    i = .reset ∨ (issuedCommand i = some .start ∧ t.state = .transmitting)

/-- R28, R118: the outcome is set only in the step that returns the engine to Idle, and cleared only by a successful START
and by Reset; in the step a transaction ends the engine is Idle. -/
def Obligations.OutcomeIsKeptUntilTheNextStart : Prop :=
  ∀ (i : Instr) (s t : State), Inv s → exec i s = .next t →
    (t.done = s.done ∧ t.txnResult = s.txnResult) ∨
    (s.state = .awaitingResponse ∧ t.state = .idle ∧ s.done = false ∧ t.done = true ∧ t.txnResult ≠ .none) ∨
    (t.done = false ∧ t.txnResult = .none ∧
      (i = .reset ∨ (issuedCommand i = some .start ∧ s.state = .idle ∧ t.state = .transmitting)))

/-- R29: every write to CMD sets cmdStatus, whatever it held, and nothing else but Reset writes it. -/
def Obligations.OnlyCommandsWriteCmdStatus : Prop :=
  (∀ (i : Instr) (s : State) (c : CmdStatus), writesCmd i = true → exec i { s with cmdStatus := c } = exec i s) ∧
  ∀ (i : Instr) (s t : State), writesCmd i = false → i ≠ .reset → exec i s = .next t → t.cmdStatus = s.cmdStatus

/-- R21 to R29: who may write each field of the block state, Reset apart (R131), and in which engine state. That no
instruction writes the parameters, the pending events, and that only a host access writes the bus answer, are facts about
the model's own fields (notes/assumptions/4.md, 2.md and 6.md). -/
def Obligations.EachFieldHasItsWriters : Prop :=
  ∀ (i : Instr) (s t : State), exec i s = .next t →
    t.cfg = s.cfg ∧ t.inputs = s.inputs ∧
    (t.busResp ≠ s.busResp →
      i.isCommand = true ∨ (∃ off n, i = .hostRead off n) ∨ ∃ off n v, i = .hostWrite off n v) ∧
    (i ≠ .reset →
      (t.state ≠ s.state →
        (s.state = .idle ∧ issuedCommand i = some .start) ∨ (s.state = .transmitting ∧ i = .txDone) ∨
          (s.state = .awaitingResponse ∧ ((∃ b, i = .rxByte b) ∨ i = .tick))) ∧
      (t.crcAcc ≠ s.crcAcc → issuedCommand i = some .crcInit ∨ (∃ b, issuedCommand i = some (.crcFeed b)) ∨
        ∃ n, issuedCommand i = some (.crcPbuf n)) ∧
      ((t.reqSlave ≠ s.reqSlave ∨ t.reqFc ≠ s.reqFc ∨ t.reqPlen ≠ s.reqPlen) → ∃ v, i = .hostWrite 0x00C 4 v) ∧
      ((t.reqAddr ≠ s.reqAddr ∨ t.reqCount ≠ s.reqCount) → ∃ v, i = .hostWrite 0x010 4 v) ∧
      (t.timeoutCfg ≠ s.timeoutCfg → ∃ v, i = .hostWrite 0x014 4 v) ∧
      (t.pbuf ≠ s.pbuf → ∃ off n v, i = .hostWrite off n v ∧ 0x100 ≤ off.toNat ∧ off.toNat < 0x200) ∧
      (t.txFrame ≠ s.txFrame → s.state = .idle ∧ issuedCommand i = some .build) ∧
      (t.txIdx ≠ s.txIdx →
        (s.state = .idle ∧ (issuedCommand i = some .build ∨ issuedCommand i = some .start)) ∨
          (s.state = .transmitting ∧ i = .txDone)) ∧
      (t.rxFrame ≠ s.rxFrame →
        (s.state = .idle ∧ issuedCommand i = some .start) ∨
          (s.state = .awaitingResponse ∧ ((∃ b, i = .rxByte b) ∨ i = .tick))) ∧
      (t.rxExpect ≠ s.rxExpect → s.state = .idle ∧ issuedCommand i = some .start) ∧
      (t.rxOverrun ≠ s.rxOverrun →
        (s.state = .idle ∧ issuedCommand i = some .start) ∨ (s.state = .awaitingResponse ∧ ∃ b, i = .rxByte b)) ∧
      (t.ticks ≠ s.ticks →
        (s.state = .idle ∧ issuedCommand i = some .start) ∨ (s.state = .transmitting ∧ i = .txDone) ∨
          (s.state = .awaitingResponse ∧ i = .tick)) ∧
      (t.toLatched ≠ s.toLatched → s.state = .transmitting ∧ i = .txDone) ∧
      ((t.done ≠ s.done ∨ t.txnResult ≠ s.txnResult) →
        (s.state = .idle ∧ issuedCommand i = some .start) ∨
          (s.state = .awaitingResponse ∧ ((∃ b, i = .rxByte b) ∨ i = .tick))) ∧
      (t.cmdStatus ≠ s.cmdStatus → writesCmd i = true))

/-- R119, R40, R81, R95: no instruction is refused, and the machine stops only where a host read, CRC_PBUF or BUILD reads
a PBUF byte nothing has written. -/
def Obligations.StopsOnlyOnUnwrittenPayload : Prop :=
  ∀ (i : Instr) (s : State),
    ((∃ t, exec i s = .next t) ∨ exec i s = .fault .uninitPayload) ∧
    (exec i s = .fault .uninitPayload ↔
      (∃ n k, issuedCommand i = some (.crcPbuf n) ∧ k < n.toNat ∧ s.pbuf.read k = none) ∨
      (issuedCommand i = some .build ∧ s.state = .idle ∧ s.reqCount.toNat ≤ s.cfg.maxCount ∧
        s.reqPlen.toNat ≤ s.cfg.txCapacity - 8 ∧ ∃ k, k < s.reqPlen.toNat ∧ s.pbuf.read k = none) ∨
      ∃ off n k, i = .hostRead off n ∧ 0x100 ≤ off.toNat ∧ off.toNat < 0x200 ∧
        (n = 1 ∨ n = 4 ∧ off.toNat % 4 = 0) ∧ k < n ∧ s.pbuf.read (off.toNat - 0x100 + k) = none)

/-- R60, R136: START, transmission, reception and the clock read the built frame only: whatever the request registers and
PBUF hold, they do the same and leave the staged operands alone. -/
def Obligations.StagedOperandsDoNotReachTheEngine : Prop :=
  ∀ (i : Instr) (s : State) (slave fc : Byte) (plen : BitVec 9) (addr count : Half) (p : Memory),
    (i = .start ∨ i = .txDone ∨ (∃ b, i = .rxByte b) ∨ i = .tick) →
    exec i { s with reqSlave := slave, reqFc := fc, reqPlen := plen, reqAddr := addr, reqCount := count, pbuf := p } =
      mapNext (fun t => { t with
        reqSlave := slave, reqFc := fc, reqPlen := plen, reqAddr := addr, reqCount := count, pbuf := p })
        (exec i s)

/-- R139: a line that keeps its duty reports TxDone only for an offered byte, and each such report counts exactly one
byte. -/
def Obligations.DutifulTxDoneCountsOneByte : Prop :=
  ∀ (s : State) (rest : List Input), Inv s → LineDuty s → s.inputs = .txDone :: rest →
    ∃ t, step s = .next t ∧ t.txIdx = s.txIdx + 1 ∧ s.txOut = s.txFrame[s.txIdx]? ∧ s.txOut ≠ none ∧
      (t.state = .transmitting ∨ t.state = .awaitingResponse)

/-- R109, R110: a whole transaction from Idle: START, one TxDone for each byte of the frame, then the expected number of
response bytes. A valid response ends it Complete with the whole frame in rxFrame; any other ends it CrcError with the
frame discarded. -/
def Obligations.TransactionEndToEnd : Prop :=
  ∀ (s : State) (resp : List Byte) (rest : List Input), Inv s → s.state = .idle → s.txFrame ≠ [] →
    respLen s.cfg (fcOf s.txFrame) (countOf s.txFrame) = some resp.length → resp.length ≤ s.cfg.rxCapacity →
    s.inputs =
      .busWrite s.cfg.base 4 0x11000000#32 ::
        (List.replicate s.txFrame.length .txDone ++ resp.map .rxByte ++ rest) →
    ∃ t : State, runSteps (1 + s.txFrame.length + resp.length) s = .next t ∧
      t = { s with
        state := .idle, txIdx := s.txFrame.length, rxExpect := resp.length, rxOverrun := false, ticks := 0,
        toLatched := s.timeoutCfg, done := true, cmdStatus := .ok, busResp := .written, inputs := rest,
        txnResult := t.txnResult, rxFrame := t.rxFrame } ∧
      ((∃ r, parse resp = .ok r) → t.txnResult = .complete ∧ t.rxFrame = resp) ∧
      (parse resp = .crcError → t.txnResult = .crcError ∧ t.rxFrame = [])

/-- R9: PBUF_CAPACITY is a parameter. Whatever it is, a PBUF write stores the bytes of it that lie inside the buffer and
leaves every other byte and every other field. That a write past the end of a buffer smaller than the window completes and
stores nothing there is the model's own choice (notes/assumptions/15.md). -/
def Obligations.PbufWritesStayInsideTheBuffer : Prop :=
  ∀ (s : State) (off : BitVec 10) (v : Word), 0x100 ≤ off.toNat → off.toNat < 0x200 →
    (∃ p : Memory, exec (.hostWrite off 1 v) s = .next { s with pbuf := p, busResp := .written } ∧
      ∀ a, p.read a =
        if a = off.toNat - 0x100 ∧ a < s.cfg.pbufCapacity then some (v.extractLsb' 0 8) else s.pbuf.read a) ∧
    (off.toNat % 4 = 0 →
      ∃ p : Memory, exec (.hostWrite off 4 v) s = .next { s with pbuf := p, busResp := .written } ∧
        (∀ k, k < 4 → off.toNat - 0x100 + k < s.cfg.pbufCapacity →
          p.read (off.toNat - 0x100 + k) = some (v.extractLsb' (8 * k) 8)) ∧
        ∀ a, (s.cfg.pbufCapacity ≤ a ∨ a < off.toNat - 0x100 ∨ off.toNat - 0x100 + 4 ≤ a) → p.read a = s.pbuf.read a)

/-- R9: what lies past the end of the payload buffer is never written: in every state that meets the invariant a byte read
there, a CRC_PBUF over it and a BUILD whose payload reaches it are the fault UninitPayload (R40, R81, R95). For a
PBUF_CAPACITY below 256 this is the model's own choice (notes/assumptions/15.md). For CRC_PBUF of n above 256, which is all
its clause says at the capacity 256, it is the model's choice of notes/assumptions/10.md: no word decodes to such a term, and
the word that carries such an n is illegal (R69). -/
def Obligations.PayloadBufferEndsAtItsCapacity : Prop :=
  ∀ s : State, Inv s →
    (∀ off : BitVec 10, 0x100 + s.cfg.pbufCapacity ≤ off.toNat → off.toNat < 0x200 →
      exec (.hostRead off 1) s = .fault .uninitPayload) ∧
    (∀ n : BitVec 9, s.cfg.pbufCapacity < n.toNat → exec (.crcPbuf n) s = .fault .uninitPayload) ∧
    (s.state = .idle → s.reqCount.toNat ≤ s.cfg.maxCount → s.reqPlen.toNat ≤ s.cfg.txCapacity - 8 →
      s.cfg.pbufCapacity < s.reqPlen.toNat → exec .build s = .fault .uninitPayload)

/-- R39, as far as R100, R128 and R43(e) leave it: after a transaction has ended TICKS goes on reading as it did, whatever
comes but a Reset, until a START succeeds; LATCHED is kept on until the response is awaited again, and ELAPSED is 0 from the
START. That the START's zero governs over R39's "until the next entry into AwaitingResponse" is the model's choice between
the spec's rules (notes/assumptions/12.md). -/
def Obligations.TicksViewIsKeptAfterTheTransaction : Prop :=
  ∀ (s t : State) (l rest : List Input), s.state = .idle → s.inputs = l ++ rest → Input.reset ∉ l →
    runSteps l.length s = .next t →
    (∀ (j : Nat) (u : State), j ≤ l.length → runSteps j s = .next u → u.state ≠ .awaitingResponse) →
    t.toLatched = s.toLatched ∧
      (t.state = .idle → t.ticks = s.ticks ∧ ∀ w, ReadsWord s 0x020 w → ReadsWord t 0x020 w) ∧
      (t.state = .transmitting → t.ticks = 0)
end

