-- ==== Sys2Proof/Laws/Checksum.lean ====
section
/-! SUPPORT. The checksum over lists and the algebra of its one-byte update (40_crc.md). -/

namespace Sys2Proof.Machine

@[simp] theorem crc16_nil : crc16 [] = 0xFFFF#16 := rfl

/-- The checksum of a list extended by one byte (R77). -/
@[simp] theorem crc16_concat (l : List Byte) (b : Byte) : crc16 (l ++ [b]) = crcByte (crc16 l) b := by
  simp [crc16]

/-- The checksum of an append starts from the checksum of the first part (R77). -/
theorem crc16_append (l r : List Byte) : crc16 (l ++ r) = r.foldl crcByte (crc16 l) := by
  simp [crc16]

/-- One turn of the loop loses no information: the polynomial has the constant term 1. -/
theorem crcShift_injective {c d : Half} (h : crcShift c = crcShift d) : c = d := by
  have top : ∀ x : Half, (crcShift x).getLsbD 15 = x.getLsbD 0 := by
    intro x
    unfold crcShift
    split <;> simp_all
  have low : c.getLsbD 0 = d.getLsbD 0 := by rw [← top c, ← top d, h]
  unfold crcShift at h
  rw [low] at h
  have shifted : c >>> 1 = d >>> 1 := by
    split at h
    · exact (BitVec.xor_left_inj _).1 h
    · exact h
  ext i hi
  cases i with
  | zero => simpa [BitVec.getLsbD_eq_getElem] using low
  | succ i =>
    have := congrArg (fun x : Half => x.getLsbD i) shifted
    simpa [Nat.add_comm, BitVec.getLsbD_eq_getElem hi] using this

theorem crcShifts_injective (k : Nat) {c d : Half} (h : crcShifts k c = crcShifts k d) : c = d := by
  induction k generalizing c d with
  | zero => exact h
  | succ k ih => exact crcShift_injective (ih h)

/-- The update is injective in the accumulator. -/
theorem crcByte_left_injective {c d : Half} {b : Byte} (h : crcByte c b = crcByte d b) : c = d :=
  (BitVec.xor_left_inj _).1 (crcShifts_injective 8 h)

/-- The update is injective in the byte. -/
theorem crcByte_right_injective {c : Half} {a b : Byte} (h : crcByte c a = crcByte c b) : a = b := by
  have := (BitVec.xor_right_inj _).1 (crcShifts_injective 8 h)
  have := congrArg (BitVec.setWidth 8) this
  simpa using this

/-- Two accumulators that differ go on differing over equal bytes. -/
theorem foldl_crcByte_injective (l : List Byte) {c d : Half} (h : l.foldl crcByte c = l.foldl crcByte d) : c = d := by
  induction l generalizing c d with
  | nil => exact h
  | cons b l ih => exact crcByte_left_injective (ih h)

/-- Turns of the loop over zero low bits are plain shifts. -/
theorem crcShifts_of_low_zero (k : Nat) (c : Half) (h : ∀ i, i < k → c.getLsbD i = false) :
    crcShifts k c = c >>> k := by
  induction k generalizing c with
  | zero => simp [crcShifts]
  | succ k ih =>
    have h0 : crcShift c = c >>> 1 := by
      rw [crcShift, h 0 (by omega)]; rfl
    rw [crcShifts, h0, ih, ← BitVec.shiftRight_add, Nat.add_comm]
    intro i hi
    simpa using h (1 + i) (by omega)

/-- The other direction: zero high bits after the turns show that the low bits were zero. -/
theorem low_zero_of_crcShifts (k : Nat) (hk : k ≤ 16) (c : Half)
    (h : ∀ i, 16 - k ≤ i → (crcShifts k c).getLsbD i = false) : ∀ i, i < k → c.getLsbD i = false := by
  induction k generalizing c with
  | zero => intro i hi; omega
  | succ k ih =>
    have hlow : ∀ i, i < k → (crcShift c).getLsbD i = false := ih (by omega) _ fun i hi => h i (by omega)
    have h0 : c.getLsbD 0 = false := by
      have hb := h (15 - k) (by omega)
      rw [crcShifts, crcShifts_of_low_zero k _ hlow, BitVec.getLsbD_ushiftRight, show k + (15 - k) = 15 by omega] at hb
      unfold crcShift at hb
      split at hb <;> simp_all
    have hs : crcShift c = c >>> 1 := by rw [crcShift, h0]; rfl
    intro i hi
    cases i with
    | zero => exact h0
    | succ i =>
      have := hlow i (by omega)
      rw [hs, BitVec.getLsbD_ushiftRight] at this
      rwa [Nat.add_comm] at this

/-- The update gives zero only on the accumulator that is the byte itself. -/
theorem crcByte_eq_zero {c : Half} {b : Byte} (h : crcByte c b = 0#16) : c = b.setWidth 16 := by
  have h0 : crcShifts 8 0#16 = 0#16 := by decide
  have := crcShifts_injective 8 (h.trans h0.symm)
  exact BitVec.xor_eq_zero_iff.1 this

/-- The update's result fits a byte only when the byte folded is the accumulator's low one. -/
theorem eq_lo_of_crcByte {c : Half} {b y : Byte} (h : crcByte c b = y.setWidth 16) : b = lo c := by
  have hz := low_zero_of_crcShifts 8 (by omega) (c ^^^ b.setWidth 16) fun i hi => by
    have : ¬ i < 8 := by omega
    rw [show crcShifts 8 (c ^^^ b.setWidth 16) = y.setWidth 16 from h]
    simp
    intro _
    exact BitVec.getLsbD_of_ge y i (by omega)
  ext i hi
  have := hz i hi
  have hi' : i < 16 := by omega
  simp [hi', BitVec.getLsbD_eq_getElem hi] at this
  simp [lo, BitVec.getLsbD_eq_getElem hi', this]

/-- Folding the accumulator's own low byte shifts it out. -/
theorem crcByte_lo (c : Half) : crcByte c (lo c) = c >>> 8 := by
  have hlow : ∀ i, i < 8 → (c ^^^ (lo c).setWidth 16).getLsbD i = false := by
    intro i hi
    have : i < 16 := by omega
    simp [lo, hi, this]
  rw [crcByte, crcShifts_of_low_zero 8 _ hlow]
  ext i hi
  simp [lo]

@[simp] theorem length_withTrailer (body : List Byte) : (withTrailer body).length = body.length + 2 := by
  simp [withTrailer]

end Sys2Proof.Machine
end

