-- ==== Sys2Proof/Laws/Config.lean ====
section
/-! SUPPORT. The parameters: RESP_LEN under an override, the default table's range, and the response window in real
time. -/

namespace Sys2Proof.Machine

@[simp] theorem respLen_no_override {cfg : Config} (h : cfg.respLenOverride = []) (fc : Byte) (count : Half) :
    respLen cfg fc count = defaultRespLen fc count := by
  simp [respLen, h]

/-- The lengths of the default table (R96). -/
theorem defaultRespLen_range {fc : Byte} {count : Half} {len : Nat} (h : defaultRespLen fc count = some len) :
    5 ≤ len ∧ len ≤ max 8 (5 + 2 * count.toNat) := by
  unfold defaultRespLen at h
  split_ifs at h <;> cases h <;> omega

/-- The default parameters meet the constraints (R97). -/
theorem configOk_specDefault : ConfigOk Config.specDefault where
  rxCapacity := by decide
  txCapacity := by decide
  pbufCapacity := by decide
  maxCount := by decide
  respLen := fun fc count len hc h => by
    rw [respLen_no_override rfl] at h
    have := defaultRespLen_range h
    have : count.toNat ≤ 128 := hc
    omega

/-- The expiring Tick comes more than (T - 1)·P and at most T·P after the entry (70_reset_and_hazards.md R144). -/
theorem expiryDelay_bounds (cfg : Config) {T phase : Nat} (hT : 1 ≤ T) (h0 : 0 < phase)
    (hP : phase ≤ cfg.tickPeriodUs) :
    (T - 1) * cfg.tickPeriodUs < expiryDelay cfg T phase ∧ expiryDelay cfg T phase ≤ T * cfg.tickPeriodUs := by
  obtain ⟨k, rfl⟩ : ∃ k, T = k + 1 := ⟨T - 1, by omega⟩
  have : max (k + 1) 1 - 1 = k := by omega
  rw [expiryDelay, this, Nat.add_mul, Nat.one_mul]
  constructor
  · simp; omega
  · omega

/-- The setting ⌈W / P⌉ + 1 leaves a window of more than W, whatever the phase (R144). -/
theorem leastWindowSetting_suffices (cfg : Config) (W : Nat) {phase : Nat} (h0 : 0 < phase)
    (hP : phase ≤ cfg.tickPeriodUs) : W < expiryDelay cfg (leastWindowSetting cfg W) phase := by
  have hpos : 0 < cfg.tickPeriodUs := by omega
  have hb := (expiryDelay_bounds cfg (T := leastWindowSetting cfg W) (by simp [leastWindowSetting]) h0 hP).1
  refine Nat.lt_of_le_of_lt ?_ hb
  have := Nat.lt_div_mul_add hpos (a := W + cfg.tickPeriodUs - 1)
  simp only [leastWindowSetting, Nat.add_sub_cancel]
  omega

end Sys2Proof.Machine
end

