-- ==== Sys2Proof/Laws/Encoding.lean ====
section
/-! SUPPORT. What the command decoder can answer, the fields of an encoded word, and which events stand for which
instructions. -/

namespace Sys2Proof

@[simp] theorem opcOf_or_byte (b : Byte) : opcOf (0x02000000#32 ||| b.setWidth 32) = 0x02#8 := by
  unfold opcOf
  ext i hi
  simp
  decide +revert

@[simp] theorem opcOf_or_count (n : BitVec 9) : opcOf (0x03000000#32 ||| n.setWidth 32) = 0x03#8 := by
  unfold opcOf
  ext i hi
  simp
  decide +revert

/-- Only command rows have words, so a legal word decodes to a command. -/
theorem isCommand_of_decode {v : Word} {i : Instr} (h : decodeCommand v = .ok i) : i.isCommand = true := by
  unfold decodeCommand decodePlain decodeCrcFeed decodeCrcPbuf at h
  split_ifs at h <;> cases h <;> rfl

theorem commandOf_eq_some_iff {v : Word} {i : Instr} : commandOf v = some i ↔ decodeCommand v = .ok i := by
  unfold commandOf
  cases decodeCommand v <;> simp

theorem isCommand_of_commandOf {v : Word} {i : Instr} (h : commandOf v = some i) : i.isCommand = true :=
  isCommand_of_decode (commandOf_eq_some_iff.1 h)

namespace Machine

@[simp] theorem windowOffset_base (cfg : Config) (off : BitVec 10) :
    windowOffset cfg (cfg.base + off.toNat) = some off := by
  have := off.isLt
  simp [windowOffset, Config.windowSize]
  omega

theorem windowOffset_of_lt {cfg : Config} {a : Nat}
    (h : ¬(cfg.base ≤ a ∧ a < cfg.base + 0x400)) : windowOffset cfg a = none := by
  rw [windowOffset, Config.windowSize, if_neg h]

/-- A host write is a command exactly as the decoder says, and otherwise itself. -/
theorem fetchWrite_cases (off : BitVec 10) (n : Nat) (v : Word) :
    (off = 0 ∧ n = 4 ∧ commandOf v = some (fetchWrite off n v)) ∨ fetchWrite off n v = .hostWrite off n v := by
  unfold fetchWrite
  split
  · next h =>
    cases hc : commandOf v with
    | none => exact .inr rfl
    | some i => exact .inl ⟨h.1, h.2, rfl⟩
  · exact .inr rfl

/-- No bus write stands for an event of the line, the tick facility or the platform. -/
theorem fetchWrite_isHost (off : BitVec 10) (n : Nat) (v : Word) :
    fetchWrite off n v ≠ .txDone ∧ (∀ b, fetchWrite off n v ≠ .rxByte b) ∧ fetchWrite off n v ≠ .tick ∧
      fetchWrite off n v ≠ .reset := by
  rcases fetchWrite_cases off n v with ⟨-, -, h⟩ | h
  · have hc := isCommand_of_commandOf h
    refine ⟨?_, fun b => ?_, ?_, ?_⟩ <;> intro he <;> rw [he] at hc <;> cases hc
  · rw [h]; simp

theorem fetchInput_eq_txDone {cfg : Config} {e : Input} : fetchInput cfg e = some .txDone ↔ e = .txDone := by
  cases e <;> simp [fetchInput, fetchWrite_isHost]

theorem fetchInput_eq_tick {cfg : Config} {e : Input} : fetchInput cfg e = some .tick ↔ e = .tick := by
  cases e <;> simp [fetchInput, fetchWrite_isHost]

theorem fetchInput_eq_reset {cfg : Config} {e : Input} : fetchInput cfg e = some .reset ↔ e = .reset := by
  cases e <;> simp [fetchInput, fetchWrite_isHost]

end Machine

end Sys2Proof
end

