-- ==== Sys2Proof/Laws/State.lean ====
section
/-! SUPPORT. What each named update of the state does to each field: one lemma a field, each true by rfl, so that no
proof unfolds a record update. -/

namespace Sys2Proof.Machine.State

variable (s : State)

@[simp] theorem respond_cfg (r : BusResponse) : (s.respond r).cfg = s.cfg := rfl
@[simp] theorem respond_state (r : BusResponse) : (s.respond r).state = s.state := rfl
@[simp] theorem respond_crcAcc (r : BusResponse) : (s.respond r).crcAcc = s.crcAcc := rfl
@[simp] theorem respond_reqSlave (r : BusResponse) : (s.respond r).reqSlave = s.reqSlave := rfl
@[simp] theorem respond_reqFc (r : BusResponse) : (s.respond r).reqFc = s.reqFc := rfl
@[simp] theorem respond_reqPlen (r : BusResponse) : (s.respond r).reqPlen = s.reqPlen := rfl
@[simp] theorem respond_reqAddr (r : BusResponse) : (s.respond r).reqAddr = s.reqAddr := rfl
@[simp] theorem respond_reqCount (r : BusResponse) : (s.respond r).reqCount = s.reqCount := rfl
@[simp] theorem respond_timeoutCfg (r : BusResponse) : (s.respond r).timeoutCfg = s.timeoutCfg := rfl
@[simp] theorem respond_pbuf (r : BusResponse) : (s.respond r).pbuf = s.pbuf := rfl
@[simp] theorem respond_txFrame (r : BusResponse) : (s.respond r).txFrame = s.txFrame := rfl
@[simp] theorem respond_txIdx (r : BusResponse) : (s.respond r).txIdx = s.txIdx := rfl
@[simp] theorem respond_rxFrame (r : BusResponse) : (s.respond r).rxFrame = s.rxFrame := rfl
@[simp] theorem respond_rxExpect (r : BusResponse) : (s.respond r).rxExpect = s.rxExpect := rfl
@[simp] theorem respond_rxOverrun (r : BusResponse) : (s.respond r).rxOverrun = s.rxOverrun := rfl
@[simp] theorem respond_ticks (r : BusResponse) : (s.respond r).ticks = s.ticks := rfl
@[simp] theorem respond_toLatched (r : BusResponse) : (s.respond r).toLatched = s.toLatched := rfl
@[simp] theorem respond_done (r : BusResponse) : (s.respond r).done = s.done := rfl
@[simp] theorem respond_txnResult (r : BusResponse) : (s.respond r).txnResult = s.txnResult := rfl
@[simp] theorem respond_cmdStatus (r : BusResponse) : (s.respond r).cmdStatus = s.cmdStatus := rfl
@[simp] theorem respond_inputs (r : BusResponse) : (s.respond r).inputs = s.inputs := rfl
@[simp] theorem respond_busResp (r : BusResponse) : (s.respond r).busResp = r := rfl

@[simp] theorem report_cfg (c : CmdStatus) : (s.report c).cfg = s.cfg := rfl
@[simp] theorem report_state (c : CmdStatus) : (s.report c).state = s.state := rfl
@[simp] theorem report_crcAcc (c : CmdStatus) : (s.report c).crcAcc = s.crcAcc := rfl
@[simp] theorem report_reqSlave (c : CmdStatus) : (s.report c).reqSlave = s.reqSlave := rfl
@[simp] theorem report_reqFc (c : CmdStatus) : (s.report c).reqFc = s.reqFc := rfl
@[simp] theorem report_reqPlen (c : CmdStatus) : (s.report c).reqPlen = s.reqPlen := rfl
@[simp] theorem report_reqAddr (c : CmdStatus) : (s.report c).reqAddr = s.reqAddr := rfl
@[simp] theorem report_reqCount (c : CmdStatus) : (s.report c).reqCount = s.reqCount := rfl
@[simp] theorem report_timeoutCfg (c : CmdStatus) : (s.report c).timeoutCfg = s.timeoutCfg := rfl
@[simp] theorem report_pbuf (c : CmdStatus) : (s.report c).pbuf = s.pbuf := rfl
@[simp] theorem report_txFrame (c : CmdStatus) : (s.report c).txFrame = s.txFrame := rfl
@[simp] theorem report_txIdx (c : CmdStatus) : (s.report c).txIdx = s.txIdx := rfl
@[simp] theorem report_rxFrame (c : CmdStatus) : (s.report c).rxFrame = s.rxFrame := rfl
@[simp] theorem report_rxExpect (c : CmdStatus) : (s.report c).rxExpect = s.rxExpect := rfl
@[simp] theorem report_rxOverrun (c : CmdStatus) : (s.report c).rxOverrun = s.rxOverrun := rfl
@[simp] theorem report_ticks (c : CmdStatus) : (s.report c).ticks = s.ticks := rfl
@[simp] theorem report_toLatched (c : CmdStatus) : (s.report c).toLatched = s.toLatched := rfl
@[simp] theorem report_done (c : CmdStatus) : (s.report c).done = s.done := rfl
@[simp] theorem report_txnResult (c : CmdStatus) : (s.report c).txnResult = s.txnResult := rfl
@[simp] theorem report_cmdStatus (c : CmdStatus) : (s.report c).cmdStatus = c := rfl
@[simp] theorem report_inputs (c : CmdStatus) : (s.report c).inputs = s.inputs := rfl
@[simp] theorem report_busResp (c : CmdStatus) : (s.report c).busResp = .written := rfl

@[simp] theorem endTransaction_cfg (r : TxnResult) (rx : List Byte) : (s.endTransaction r rx).cfg = s.cfg := rfl
@[simp] theorem endTransaction_state (r : TxnResult) (rx : List Byte) : (s.endTransaction r rx).state = .idle := rfl
@[simp] theorem endTransaction_crcAcc (r : TxnResult) (rx : List Byte) : (s.endTransaction r rx).crcAcc = s.crcAcc := rfl
@[simp] theorem endTransaction_reqSlave (r : TxnResult) (rx : List Byte) : (s.endTransaction r rx).reqSlave = s.reqSlave := rfl
@[simp] theorem endTransaction_reqFc (r : TxnResult) (rx : List Byte) : (s.endTransaction r rx).reqFc = s.reqFc := rfl
@[simp] theorem endTransaction_reqPlen (r : TxnResult) (rx : List Byte) : (s.endTransaction r rx).reqPlen = s.reqPlen := rfl
@[simp] theorem endTransaction_reqAddr (r : TxnResult) (rx : List Byte) : (s.endTransaction r rx).reqAddr = s.reqAddr := rfl
@[simp] theorem endTransaction_reqCount (r : TxnResult) (rx : List Byte) : (s.endTransaction r rx).reqCount = s.reqCount := rfl
@[simp] theorem endTransaction_timeoutCfg (r : TxnResult) (rx : List Byte) : (s.endTransaction r rx).timeoutCfg = s.timeoutCfg := rfl
@[simp] theorem endTransaction_pbuf (r : TxnResult) (rx : List Byte) : (s.endTransaction r rx).pbuf = s.pbuf := rfl
@[simp] theorem endTransaction_txFrame (r : TxnResult) (rx : List Byte) : (s.endTransaction r rx).txFrame = s.txFrame := rfl
@[simp] theorem endTransaction_txIdx (r : TxnResult) (rx : List Byte) : (s.endTransaction r rx).txIdx = s.txIdx := rfl
@[simp] theorem endTransaction_rxFrame (r : TxnResult) (rx : List Byte) : (s.endTransaction r rx).rxFrame = rx := rfl
@[simp] theorem endTransaction_rxExpect (r : TxnResult) (rx : List Byte) : (s.endTransaction r rx).rxExpect = s.rxExpect := rfl
@[simp] theorem endTransaction_rxOverrun (r : TxnResult) (rx : List Byte) : (s.endTransaction r rx).rxOverrun = s.rxOverrun := rfl
@[simp] theorem endTransaction_ticks (r : TxnResult) (rx : List Byte) : (s.endTransaction r rx).ticks = s.ticks := rfl
@[simp] theorem endTransaction_toLatched (r : TxnResult) (rx : List Byte) : (s.endTransaction r rx).toLatched = s.toLatched := rfl
@[simp] theorem endTransaction_done (r : TxnResult) (rx : List Byte) : (s.endTransaction r rx).done = true := rfl
@[simp] theorem endTransaction_txnResult (r : TxnResult) (rx : List Byte) : (s.endTransaction r rx).txnResult = r := rfl
@[simp] theorem endTransaction_cmdStatus (r : TxnResult) (rx : List Byte) : (s.endTransaction r rx).cmdStatus = s.cmdStatus := rfl
@[simp] theorem endTransaction_inputs (r : TxnResult) (rx : List Byte) : (s.endTransaction r rx).inputs = s.inputs := rfl
@[simp] theorem endTransaction_busResp (r : TxnResult) (rx : List Byte) : (s.endTransaction r rx).busResp = s.busResp := rfl

@[simp] theorem setCrc_cfg (c : Half) : (s.setCrc c).cfg = s.cfg := rfl
@[simp] theorem setCrc_state (c : Half) : (s.setCrc c).state = s.state := rfl
@[simp] theorem setCrc_crcAcc (c : Half) : (s.setCrc c).crcAcc = c := rfl
@[simp] theorem setCrc_reqSlave (c : Half) : (s.setCrc c).reqSlave = s.reqSlave := rfl
@[simp] theorem setCrc_reqFc (c : Half) : (s.setCrc c).reqFc = s.reqFc := rfl
@[simp] theorem setCrc_reqPlen (c : Half) : (s.setCrc c).reqPlen = s.reqPlen := rfl
@[simp] theorem setCrc_reqAddr (c : Half) : (s.setCrc c).reqAddr = s.reqAddr := rfl
@[simp] theorem setCrc_reqCount (c : Half) : (s.setCrc c).reqCount = s.reqCount := rfl
@[simp] theorem setCrc_timeoutCfg (c : Half) : (s.setCrc c).timeoutCfg = s.timeoutCfg := rfl
@[simp] theorem setCrc_pbuf (c : Half) : (s.setCrc c).pbuf = s.pbuf := rfl
@[simp] theorem setCrc_txFrame (c : Half) : (s.setCrc c).txFrame = s.txFrame := rfl
@[simp] theorem setCrc_txIdx (c : Half) : (s.setCrc c).txIdx = s.txIdx := rfl
@[simp] theorem setCrc_rxFrame (c : Half) : (s.setCrc c).rxFrame = s.rxFrame := rfl
@[simp] theorem setCrc_rxExpect (c : Half) : (s.setCrc c).rxExpect = s.rxExpect := rfl
@[simp] theorem setCrc_rxOverrun (c : Half) : (s.setCrc c).rxOverrun = s.rxOverrun := rfl
@[simp] theorem setCrc_ticks (c : Half) : (s.setCrc c).ticks = s.ticks := rfl
@[simp] theorem setCrc_toLatched (c : Half) : (s.setCrc c).toLatched = s.toLatched := rfl
@[simp] theorem setCrc_done (c : Half) : (s.setCrc c).done = s.done := rfl
@[simp] theorem setCrc_txnResult (c : Half) : (s.setCrc c).txnResult = s.txnResult := rfl
@[simp] theorem setCrc_cmdStatus (c : Half) : (s.setCrc c).cmdStatus = s.cmdStatus := rfl
@[simp] theorem setCrc_inputs (c : Half) : (s.setCrc c).inputs = s.inputs := rfl
@[simp] theorem setCrc_busResp (c : Half) : (s.setCrc c).busResp = s.busResp := rfl

@[simp] theorem advanceTx_cfg : s.advanceTx.cfg = s.cfg := rfl
@[simp] theorem advanceTx_state : s.advanceTx.state = s.state := rfl
@[simp] theorem advanceTx_crcAcc : s.advanceTx.crcAcc = s.crcAcc := rfl
@[simp] theorem advanceTx_reqSlave : s.advanceTx.reqSlave = s.reqSlave := rfl
@[simp] theorem advanceTx_reqFc : s.advanceTx.reqFc = s.reqFc := rfl
@[simp] theorem advanceTx_reqPlen : s.advanceTx.reqPlen = s.reqPlen := rfl
@[simp] theorem advanceTx_reqAddr : s.advanceTx.reqAddr = s.reqAddr := rfl
@[simp] theorem advanceTx_reqCount : s.advanceTx.reqCount = s.reqCount := rfl
@[simp] theorem advanceTx_timeoutCfg : s.advanceTx.timeoutCfg = s.timeoutCfg := rfl
@[simp] theorem advanceTx_pbuf : s.advanceTx.pbuf = s.pbuf := rfl
@[simp] theorem advanceTx_txFrame : s.advanceTx.txFrame = s.txFrame := rfl
@[simp] theorem advanceTx_txIdx : s.advanceTx.txIdx = s.txIdx + 1 := rfl
@[simp] theorem advanceTx_rxFrame : s.advanceTx.rxFrame = s.rxFrame := rfl
@[simp] theorem advanceTx_rxExpect : s.advanceTx.rxExpect = s.rxExpect := rfl
@[simp] theorem advanceTx_rxOverrun : s.advanceTx.rxOverrun = s.rxOverrun := rfl
@[simp] theorem advanceTx_ticks : s.advanceTx.ticks = s.ticks := rfl
@[simp] theorem advanceTx_toLatched : s.advanceTx.toLatched = s.toLatched := rfl
@[simp] theorem advanceTx_done : s.advanceTx.done = s.done := rfl
@[simp] theorem advanceTx_txnResult : s.advanceTx.txnResult = s.txnResult := rfl
@[simp] theorem advanceTx_cmdStatus : s.advanceTx.cmdStatus = s.cmdStatus := rfl
@[simp] theorem advanceTx_inputs : s.advanceTx.inputs = s.inputs := rfl
@[simp] theorem advanceTx_busResp : s.advanceTx.busResp = s.busResp := rfl

@[simp] theorem setRx_cfg (rx : List Byte) : (s.setRx rx).cfg = s.cfg := rfl
@[simp] theorem setRx_state (rx : List Byte) : (s.setRx rx).state = s.state := rfl
@[simp] theorem setRx_crcAcc (rx : List Byte) : (s.setRx rx).crcAcc = s.crcAcc := rfl
@[simp] theorem setRx_reqSlave (rx : List Byte) : (s.setRx rx).reqSlave = s.reqSlave := rfl
@[simp] theorem setRx_reqFc (rx : List Byte) : (s.setRx rx).reqFc = s.reqFc := rfl
@[simp] theorem setRx_reqPlen (rx : List Byte) : (s.setRx rx).reqPlen = s.reqPlen := rfl
@[simp] theorem setRx_reqAddr (rx : List Byte) : (s.setRx rx).reqAddr = s.reqAddr := rfl
@[simp] theorem setRx_reqCount (rx : List Byte) : (s.setRx rx).reqCount = s.reqCount := rfl
@[simp] theorem setRx_timeoutCfg (rx : List Byte) : (s.setRx rx).timeoutCfg = s.timeoutCfg := rfl
@[simp] theorem setRx_pbuf (rx : List Byte) : (s.setRx rx).pbuf = s.pbuf := rfl
@[simp] theorem setRx_txFrame (rx : List Byte) : (s.setRx rx).txFrame = s.txFrame := rfl
@[simp] theorem setRx_txIdx (rx : List Byte) : (s.setRx rx).txIdx = s.txIdx := rfl
@[simp] theorem setRx_rxFrame (rx : List Byte) : (s.setRx rx).rxFrame = rx := rfl
@[simp] theorem setRx_rxExpect (rx : List Byte) : (s.setRx rx).rxExpect = s.rxExpect := rfl
@[simp] theorem setRx_rxOverrun (rx : List Byte) : (s.setRx rx).rxOverrun = s.rxOverrun := rfl
@[simp] theorem setRx_ticks (rx : List Byte) : (s.setRx rx).ticks = s.ticks := rfl
@[simp] theorem setRx_toLatched (rx : List Byte) : (s.setRx rx).toLatched = s.toLatched := rfl
@[simp] theorem setRx_done (rx : List Byte) : (s.setRx rx).done = s.done := rfl
@[simp] theorem setRx_txnResult (rx : List Byte) : (s.setRx rx).txnResult = s.txnResult := rfl
@[simp] theorem setRx_cmdStatus (rx : List Byte) : (s.setRx rx).cmdStatus = s.cmdStatus := rfl
@[simp] theorem setRx_inputs (rx : List Byte) : (s.setRx rx).inputs = s.inputs := rfl
@[simp] theorem setRx_busResp (rx : List Byte) : (s.setRx rx).busResp = s.busResp := rfl

@[simp] theorem markOverrun_cfg : s.markOverrun.cfg = s.cfg := rfl
@[simp] theorem markOverrun_state : s.markOverrun.state = s.state := rfl
@[simp] theorem markOverrun_crcAcc : s.markOverrun.crcAcc = s.crcAcc := rfl
@[simp] theorem markOverrun_reqSlave : s.markOverrun.reqSlave = s.reqSlave := rfl
@[simp] theorem markOverrun_reqFc : s.markOverrun.reqFc = s.reqFc := rfl
@[simp] theorem markOverrun_reqPlen : s.markOverrun.reqPlen = s.reqPlen := rfl
@[simp] theorem markOverrun_reqAddr : s.markOverrun.reqAddr = s.reqAddr := rfl
@[simp] theorem markOverrun_reqCount : s.markOverrun.reqCount = s.reqCount := rfl
@[simp] theorem markOverrun_timeoutCfg : s.markOverrun.timeoutCfg = s.timeoutCfg := rfl
@[simp] theorem markOverrun_pbuf : s.markOverrun.pbuf = s.pbuf := rfl
@[simp] theorem markOverrun_txFrame : s.markOverrun.txFrame = s.txFrame := rfl
@[simp] theorem markOverrun_txIdx : s.markOverrun.txIdx = s.txIdx := rfl
@[simp] theorem markOverrun_rxFrame : s.markOverrun.rxFrame = s.rxFrame := rfl
@[simp] theorem markOverrun_rxExpect : s.markOverrun.rxExpect = s.rxExpect := rfl
@[simp] theorem markOverrun_rxOverrun : s.markOverrun.rxOverrun = true := rfl
@[simp] theorem markOverrun_ticks : s.markOverrun.ticks = s.ticks := rfl
@[simp] theorem markOverrun_toLatched : s.markOverrun.toLatched = s.toLatched := rfl
@[simp] theorem markOverrun_done : s.markOverrun.done = s.done := rfl
@[simp] theorem markOverrun_txnResult : s.markOverrun.txnResult = s.txnResult := rfl
@[simp] theorem markOverrun_cmdStatus : s.markOverrun.cmdStatus = s.cmdStatus := rfl
@[simp] theorem markOverrun_inputs : s.markOverrun.inputs = s.inputs := rfl
@[simp] theorem markOverrun_busResp : s.markOverrun.busResp = s.busResp := rfl

@[simp] theorem withInputs_cfg (l : List Input) : (s.withInputs l).cfg = s.cfg := rfl
@[simp] theorem withInputs_state (l : List Input) : (s.withInputs l).state = s.state := rfl
@[simp] theorem withInputs_crcAcc (l : List Input) : (s.withInputs l).crcAcc = s.crcAcc := rfl
@[simp] theorem withInputs_reqSlave (l : List Input) : (s.withInputs l).reqSlave = s.reqSlave := rfl
@[simp] theorem withInputs_reqFc (l : List Input) : (s.withInputs l).reqFc = s.reqFc := rfl
@[simp] theorem withInputs_reqPlen (l : List Input) : (s.withInputs l).reqPlen = s.reqPlen := rfl
@[simp] theorem withInputs_reqAddr (l : List Input) : (s.withInputs l).reqAddr = s.reqAddr := rfl
@[simp] theorem withInputs_reqCount (l : List Input) : (s.withInputs l).reqCount = s.reqCount := rfl
@[simp] theorem withInputs_timeoutCfg (l : List Input) : (s.withInputs l).timeoutCfg = s.timeoutCfg := rfl
@[simp] theorem withInputs_pbuf (l : List Input) : (s.withInputs l).pbuf = s.pbuf := rfl
@[simp] theorem withInputs_txFrame (l : List Input) : (s.withInputs l).txFrame = s.txFrame := rfl
@[simp] theorem withInputs_txIdx (l : List Input) : (s.withInputs l).txIdx = s.txIdx := rfl
@[simp] theorem withInputs_rxFrame (l : List Input) : (s.withInputs l).rxFrame = s.rxFrame := rfl
@[simp] theorem withInputs_rxExpect (l : List Input) : (s.withInputs l).rxExpect = s.rxExpect := rfl
@[simp] theorem withInputs_rxOverrun (l : List Input) : (s.withInputs l).rxOverrun = s.rxOverrun := rfl
@[simp] theorem withInputs_ticks (l : List Input) : (s.withInputs l).ticks = s.ticks := rfl
@[simp] theorem withInputs_toLatched (l : List Input) : (s.withInputs l).toLatched = s.toLatched := rfl
@[simp] theorem withInputs_done (l : List Input) : (s.withInputs l).done = s.done := rfl
@[simp] theorem withInputs_txnResult (l : List Input) : (s.withInputs l).txnResult = s.txnResult := rfl
@[simp] theorem withInputs_cmdStatus (l : List Input) : (s.withInputs l).cmdStatus = s.cmdStatus := rfl
@[simp] theorem withInputs_inputs (l : List Input) : (s.withInputs l).inputs = l := rfl
@[simp] theorem withInputs_busResp (l : List Input) : (s.withInputs l).busResp = s.busResp := rfl

@[simp] theorem writeReqHdr_cfg (v : Word) : (s.writeReqHdr v).cfg = s.cfg := rfl
@[simp] theorem writeReqHdr_state (v : Word) : (s.writeReqHdr v).state = s.state := rfl
@[simp] theorem writeReqHdr_crcAcc (v : Word) : (s.writeReqHdr v).crcAcc = s.crcAcc := rfl
@[simp] theorem writeReqHdr_reqSlave (v : Word) : (s.writeReqHdr v).reqSlave = v.extractLsb' 0 8 := rfl
@[simp] theorem writeReqHdr_reqFc (v : Word) : (s.writeReqHdr v).reqFc = v.extractLsb' 8 8 := rfl
@[simp] theorem writeReqHdr_reqPlen (v : Word) : (s.writeReqHdr v).reqPlen = v.extractLsb' 16 9 := rfl
@[simp] theorem writeReqHdr_reqAddr (v : Word) : (s.writeReqHdr v).reqAddr = s.reqAddr := rfl
@[simp] theorem writeReqHdr_reqCount (v : Word) : (s.writeReqHdr v).reqCount = s.reqCount := rfl
@[simp] theorem writeReqHdr_timeoutCfg (v : Word) : (s.writeReqHdr v).timeoutCfg = s.timeoutCfg := rfl
@[simp] theorem writeReqHdr_pbuf (v : Word) : (s.writeReqHdr v).pbuf = s.pbuf := rfl
@[simp] theorem writeReqHdr_txFrame (v : Word) : (s.writeReqHdr v).txFrame = s.txFrame := rfl
@[simp] theorem writeReqHdr_txIdx (v : Word) : (s.writeReqHdr v).txIdx = s.txIdx := rfl
@[simp] theorem writeReqHdr_rxFrame (v : Word) : (s.writeReqHdr v).rxFrame = s.rxFrame := rfl
@[simp] theorem writeReqHdr_rxExpect (v : Word) : (s.writeReqHdr v).rxExpect = s.rxExpect := rfl
@[simp] theorem writeReqHdr_rxOverrun (v : Word) : (s.writeReqHdr v).rxOverrun = s.rxOverrun := rfl
@[simp] theorem writeReqHdr_ticks (v : Word) : (s.writeReqHdr v).ticks = s.ticks := rfl
@[simp] theorem writeReqHdr_toLatched (v : Word) : (s.writeReqHdr v).toLatched = s.toLatched := rfl
@[simp] theorem writeReqHdr_done (v : Word) : (s.writeReqHdr v).done = s.done := rfl
@[simp] theorem writeReqHdr_txnResult (v : Word) : (s.writeReqHdr v).txnResult = s.txnResult := rfl
@[simp] theorem writeReqHdr_cmdStatus (v : Word) : (s.writeReqHdr v).cmdStatus = s.cmdStatus := rfl
@[simp] theorem writeReqHdr_inputs (v : Word) : (s.writeReqHdr v).inputs = s.inputs := rfl
@[simp] theorem writeReqHdr_busResp (v : Word) : (s.writeReqHdr v).busResp = s.busResp := rfl

@[simp] theorem writeReqArg_cfg (v : Word) : (s.writeReqArg v).cfg = s.cfg := rfl
@[simp] theorem writeReqArg_state (v : Word) : (s.writeReqArg v).state = s.state := rfl
@[simp] theorem writeReqArg_crcAcc (v : Word) : (s.writeReqArg v).crcAcc = s.crcAcc := rfl
@[simp] theorem writeReqArg_reqSlave (v : Word) : (s.writeReqArg v).reqSlave = s.reqSlave := rfl
@[simp] theorem writeReqArg_reqFc (v : Word) : (s.writeReqArg v).reqFc = s.reqFc := rfl
@[simp] theorem writeReqArg_reqPlen (v : Word) : (s.writeReqArg v).reqPlen = s.reqPlen := rfl
@[simp] theorem writeReqArg_reqAddr (v : Word) : (s.writeReqArg v).reqAddr = v.extractLsb' 0 16 := rfl
@[simp] theorem writeReqArg_reqCount (v : Word) : (s.writeReqArg v).reqCount = v.extractLsb' 16 16 := rfl
@[simp] theorem writeReqArg_timeoutCfg (v : Word) : (s.writeReqArg v).timeoutCfg = s.timeoutCfg := rfl
@[simp] theorem writeReqArg_pbuf (v : Word) : (s.writeReqArg v).pbuf = s.pbuf := rfl
@[simp] theorem writeReqArg_txFrame (v : Word) : (s.writeReqArg v).txFrame = s.txFrame := rfl
@[simp] theorem writeReqArg_txIdx (v : Word) : (s.writeReqArg v).txIdx = s.txIdx := rfl
@[simp] theorem writeReqArg_rxFrame (v : Word) : (s.writeReqArg v).rxFrame = s.rxFrame := rfl
@[simp] theorem writeReqArg_rxExpect (v : Word) : (s.writeReqArg v).rxExpect = s.rxExpect := rfl
@[simp] theorem writeReqArg_rxOverrun (v : Word) : (s.writeReqArg v).rxOverrun = s.rxOverrun := rfl
@[simp] theorem writeReqArg_ticks (v : Word) : (s.writeReqArg v).ticks = s.ticks := rfl
@[simp] theorem writeReqArg_toLatched (v : Word) : (s.writeReqArg v).toLatched = s.toLatched := rfl
@[simp] theorem writeReqArg_done (v : Word) : (s.writeReqArg v).done = s.done := rfl
@[simp] theorem writeReqArg_txnResult (v : Word) : (s.writeReqArg v).txnResult = s.txnResult := rfl
@[simp] theorem writeReqArg_cmdStatus (v : Word) : (s.writeReqArg v).cmdStatus = s.cmdStatus := rfl
@[simp] theorem writeReqArg_inputs (v : Word) : (s.writeReqArg v).inputs = s.inputs := rfl
@[simp] theorem writeReqArg_busResp (v : Word) : (s.writeReqArg v).busResp = s.busResp := rfl

@[simp] theorem writeTimeout_cfg (v : Word) : (s.writeTimeout v).cfg = s.cfg := rfl
@[simp] theorem writeTimeout_state (v : Word) : (s.writeTimeout v).state = s.state := rfl
@[simp] theorem writeTimeout_crcAcc (v : Word) : (s.writeTimeout v).crcAcc = s.crcAcc := rfl
@[simp] theorem writeTimeout_reqSlave (v : Word) : (s.writeTimeout v).reqSlave = s.reqSlave := rfl
@[simp] theorem writeTimeout_reqFc (v : Word) : (s.writeTimeout v).reqFc = s.reqFc := rfl
@[simp] theorem writeTimeout_reqPlen (v : Word) : (s.writeTimeout v).reqPlen = s.reqPlen := rfl
@[simp] theorem writeTimeout_reqAddr (v : Word) : (s.writeTimeout v).reqAddr = s.reqAddr := rfl
@[simp] theorem writeTimeout_reqCount (v : Word) : (s.writeTimeout v).reqCount = s.reqCount := rfl
@[simp] theorem writeTimeout_timeoutCfg (v : Word) : (s.writeTimeout v).timeoutCfg = v.extractLsb' 0 16 := rfl
@[simp] theorem writeTimeout_pbuf (v : Word) : (s.writeTimeout v).pbuf = s.pbuf := rfl
@[simp] theorem writeTimeout_txFrame (v : Word) : (s.writeTimeout v).txFrame = s.txFrame := rfl
@[simp] theorem writeTimeout_txIdx (v : Word) : (s.writeTimeout v).txIdx = s.txIdx := rfl
@[simp] theorem writeTimeout_rxFrame (v : Word) : (s.writeTimeout v).rxFrame = s.rxFrame := rfl
@[simp] theorem writeTimeout_rxExpect (v : Word) : (s.writeTimeout v).rxExpect = s.rxExpect := rfl
@[simp] theorem writeTimeout_rxOverrun (v : Word) : (s.writeTimeout v).rxOverrun = s.rxOverrun := rfl
@[simp] theorem writeTimeout_ticks (v : Word) : (s.writeTimeout v).ticks = s.ticks := rfl
@[simp] theorem writeTimeout_toLatched (v : Word) : (s.writeTimeout v).toLatched = s.toLatched := rfl
@[simp] theorem writeTimeout_done (v : Word) : (s.writeTimeout v).done = s.done := rfl
@[simp] theorem writeTimeout_txnResult (v : Word) : (s.writeTimeout v).txnResult = s.txnResult := rfl
@[simp] theorem writeTimeout_cmdStatus (v : Word) : (s.writeTimeout v).cmdStatus = s.cmdStatus := rfl
@[simp] theorem writeTimeout_inputs (v : Word) : (s.writeTimeout v).inputs = s.inputs := rfl
@[simp] theorem writeTimeout_busResp (v : Word) : (s.writeTimeout v).busResp = s.busResp := rfl

@[simp] theorem writePbuf_cfg (i : Byte) (n : Nat) (v : Word) : (s.writePbuf i n v).cfg = s.cfg := rfl
@[simp] theorem writePbuf_state (i : Byte) (n : Nat) (v : Word) : (s.writePbuf i n v).state = s.state := rfl
@[simp] theorem writePbuf_crcAcc (i : Byte) (n : Nat) (v : Word) : (s.writePbuf i n v).crcAcc = s.crcAcc := rfl
@[simp] theorem writePbuf_reqSlave (i : Byte) (n : Nat) (v : Word) : (s.writePbuf i n v).reqSlave = s.reqSlave := rfl
@[simp] theorem writePbuf_reqFc (i : Byte) (n : Nat) (v : Word) : (s.writePbuf i n v).reqFc = s.reqFc := rfl
@[simp] theorem writePbuf_reqPlen (i : Byte) (n : Nat) (v : Word) : (s.writePbuf i n v).reqPlen = s.reqPlen := rfl
@[simp] theorem writePbuf_reqAddr (i : Byte) (n : Nat) (v : Word) : (s.writePbuf i n v).reqAddr = s.reqAddr := rfl
@[simp] theorem writePbuf_reqCount (i : Byte) (n : Nat) (v : Word) : (s.writePbuf i n v).reqCount = s.reqCount := rfl
@[simp] theorem writePbuf_timeoutCfg (i : Byte) (n : Nat) (v : Word) : (s.writePbuf i n v).timeoutCfg = s.timeoutCfg := rfl
@[simp] theorem writePbuf_pbuf (i : Byte) (n : Nat) (v : Word) : (s.writePbuf i n v).pbuf =
    if n = 1 then s.pbuf.store s.cfg.pbufCapacity i.toNat (byteOf v 0)
    else s.pbuf.storeWord s.cfg.pbufCapacity i.toNat v := rfl
@[simp] theorem writePbuf_txFrame (i : Byte) (n : Nat) (v : Word) : (s.writePbuf i n v).txFrame = s.txFrame := rfl
@[simp] theorem writePbuf_txIdx (i : Byte) (n : Nat) (v : Word) : (s.writePbuf i n v).txIdx = s.txIdx := rfl
@[simp] theorem writePbuf_rxFrame (i : Byte) (n : Nat) (v : Word) : (s.writePbuf i n v).rxFrame = s.rxFrame := rfl
@[simp] theorem writePbuf_rxExpect (i : Byte) (n : Nat) (v : Word) : (s.writePbuf i n v).rxExpect = s.rxExpect := rfl
@[simp] theorem writePbuf_rxOverrun (i : Byte) (n : Nat) (v : Word) : (s.writePbuf i n v).rxOverrun = s.rxOverrun := rfl
@[simp] theorem writePbuf_ticks (i : Byte) (n : Nat) (v : Word) : (s.writePbuf i n v).ticks = s.ticks := rfl
@[simp] theorem writePbuf_toLatched (i : Byte) (n : Nat) (v : Word) : (s.writePbuf i n v).toLatched = s.toLatched := rfl
@[simp] theorem writePbuf_done (i : Byte) (n : Nat) (v : Word) : (s.writePbuf i n v).done = s.done := rfl
@[simp] theorem writePbuf_txnResult (i : Byte) (n : Nat) (v : Word) : (s.writePbuf i n v).txnResult = s.txnResult := rfl
@[simp] theorem writePbuf_cmdStatus (i : Byte) (n : Nat) (v : Word) : (s.writePbuf i n v).cmdStatus = s.cmdStatus := rfl
@[simp] theorem writePbuf_inputs (i : Byte) (n : Nat) (v : Word) : (s.writePbuf i n v).inputs = s.inputs := rfl
@[simp] theorem writePbuf_busResp (i : Byte) (n : Nat) (v : Word) : (s.writePbuf i n v).busResp = s.busResp := rfl

@[simp] theorem setFrame_cfg (f : List Byte) : (s.setFrame f).cfg = s.cfg := rfl
@[simp] theorem setFrame_state (f : List Byte) : (s.setFrame f).state = s.state := rfl
@[simp] theorem setFrame_crcAcc (f : List Byte) : (s.setFrame f).crcAcc = s.crcAcc := rfl
@[simp] theorem setFrame_reqSlave (f : List Byte) : (s.setFrame f).reqSlave = s.reqSlave := rfl
@[simp] theorem setFrame_reqFc (f : List Byte) : (s.setFrame f).reqFc = s.reqFc := rfl
@[simp] theorem setFrame_reqPlen (f : List Byte) : (s.setFrame f).reqPlen = s.reqPlen := rfl
@[simp] theorem setFrame_reqAddr (f : List Byte) : (s.setFrame f).reqAddr = s.reqAddr := rfl
@[simp] theorem setFrame_reqCount (f : List Byte) : (s.setFrame f).reqCount = s.reqCount := rfl
@[simp] theorem setFrame_timeoutCfg (f : List Byte) : (s.setFrame f).timeoutCfg = s.timeoutCfg := rfl
@[simp] theorem setFrame_pbuf (f : List Byte) : (s.setFrame f).pbuf = s.pbuf := rfl
@[simp] theorem setFrame_txFrame (f : List Byte) : (s.setFrame f).txFrame = f := rfl
@[simp] theorem setFrame_txIdx (f : List Byte) : (s.setFrame f).txIdx = 0 := rfl
@[simp] theorem setFrame_rxFrame (f : List Byte) : (s.setFrame f).rxFrame = s.rxFrame := rfl
@[simp] theorem setFrame_rxExpect (f : List Byte) : (s.setFrame f).rxExpect = s.rxExpect := rfl
@[simp] theorem setFrame_rxOverrun (f : List Byte) : (s.setFrame f).rxOverrun = s.rxOverrun := rfl
@[simp] theorem setFrame_ticks (f : List Byte) : (s.setFrame f).ticks = s.ticks := rfl
@[simp] theorem setFrame_toLatched (f : List Byte) : (s.setFrame f).toLatched = s.toLatched := rfl
@[simp] theorem setFrame_done (f : List Byte) : (s.setFrame f).done = s.done := rfl
@[simp] theorem setFrame_txnResult (f : List Byte) : (s.setFrame f).txnResult = s.txnResult := rfl
@[simp] theorem setFrame_cmdStatus (f : List Byte) : (s.setFrame f).cmdStatus = s.cmdStatus := rfl
@[simp] theorem setFrame_inputs (f : List Byte) : (s.setFrame f).inputs = s.inputs := rfl
@[simp] theorem setFrame_busResp (f : List Byte) : (s.setFrame f).busResp = s.busResp := rfl

@[simp] theorem beginTransaction_cfg (len : Nat) : (s.beginTransaction len).cfg = s.cfg := rfl
@[simp] theorem beginTransaction_state (len : Nat) : (s.beginTransaction len).state = .transmitting := rfl
@[simp] theorem beginTransaction_crcAcc (len : Nat) : (s.beginTransaction len).crcAcc = s.crcAcc := rfl
@[simp] theorem beginTransaction_reqSlave (len : Nat) : (s.beginTransaction len).reqSlave = s.reqSlave := rfl
@[simp] theorem beginTransaction_reqFc (len : Nat) : (s.beginTransaction len).reqFc = s.reqFc := rfl
@[simp] theorem beginTransaction_reqPlen (len : Nat) : (s.beginTransaction len).reqPlen = s.reqPlen := rfl
@[simp] theorem beginTransaction_reqAddr (len : Nat) : (s.beginTransaction len).reqAddr = s.reqAddr := rfl
@[simp] theorem beginTransaction_reqCount (len : Nat) : (s.beginTransaction len).reqCount = s.reqCount := rfl
@[simp] theorem beginTransaction_timeoutCfg (len : Nat) : (s.beginTransaction len).timeoutCfg = s.timeoutCfg := rfl
@[simp] theorem beginTransaction_pbuf (len : Nat) : (s.beginTransaction len).pbuf = s.pbuf := rfl
@[simp] theorem beginTransaction_txFrame (len : Nat) : (s.beginTransaction len).txFrame = s.txFrame := rfl
@[simp] theorem beginTransaction_txIdx (len : Nat) : (s.beginTransaction len).txIdx = 0 := rfl
@[simp] theorem beginTransaction_rxFrame (len : Nat) : (s.beginTransaction len).rxFrame = [] := rfl
@[simp] theorem beginTransaction_rxExpect (len : Nat) : (s.beginTransaction len).rxExpect = len := rfl
@[simp] theorem beginTransaction_rxOverrun (len : Nat) : (s.beginTransaction len).rxOverrun = false := rfl
@[simp] theorem beginTransaction_ticks (len : Nat) : (s.beginTransaction len).ticks = 0 := rfl
@[simp] theorem beginTransaction_toLatched (len : Nat) : (s.beginTransaction len).toLatched = s.toLatched := rfl
@[simp] theorem beginTransaction_done (len : Nat) : (s.beginTransaction len).done = false := rfl
@[simp] theorem beginTransaction_txnResult (len : Nat) : (s.beginTransaction len).txnResult = .none := rfl
@[simp] theorem beginTransaction_cmdStatus (len : Nat) : (s.beginTransaction len).cmdStatus = s.cmdStatus := rfl
@[simp] theorem beginTransaction_inputs (len : Nat) : (s.beginTransaction len).inputs = s.inputs := rfl
@[simp] theorem beginTransaction_busResp (len : Nat) : (s.beginTransaction len).busResp = s.busResp := rfl

@[simp] theorem awaitResponse_cfg : s.awaitResponse.cfg = s.cfg := rfl
@[simp] theorem awaitResponse_state : s.awaitResponse.state = .awaitingResponse := rfl
@[simp] theorem awaitResponse_crcAcc : s.awaitResponse.crcAcc = s.crcAcc := rfl
@[simp] theorem awaitResponse_reqSlave : s.awaitResponse.reqSlave = s.reqSlave := rfl
@[simp] theorem awaitResponse_reqFc : s.awaitResponse.reqFc = s.reqFc := rfl
@[simp] theorem awaitResponse_reqPlen : s.awaitResponse.reqPlen = s.reqPlen := rfl
@[simp] theorem awaitResponse_reqAddr : s.awaitResponse.reqAddr = s.reqAddr := rfl
@[simp] theorem awaitResponse_reqCount : s.awaitResponse.reqCount = s.reqCount := rfl
@[simp] theorem awaitResponse_timeoutCfg : s.awaitResponse.timeoutCfg = s.timeoutCfg := rfl
@[simp] theorem awaitResponse_pbuf : s.awaitResponse.pbuf = s.pbuf := rfl
@[simp] theorem awaitResponse_txFrame : s.awaitResponse.txFrame = s.txFrame := rfl
@[simp] theorem awaitResponse_txIdx : s.awaitResponse.txIdx = s.txIdx + 1 := rfl
@[simp] theorem awaitResponse_rxFrame : s.awaitResponse.rxFrame = s.rxFrame := rfl
@[simp] theorem awaitResponse_rxExpect : s.awaitResponse.rxExpect = s.rxExpect := rfl
@[simp] theorem awaitResponse_rxOverrun : s.awaitResponse.rxOverrun = s.rxOverrun := rfl
@[simp] theorem awaitResponse_ticks : s.awaitResponse.ticks = 0 := rfl
@[simp] theorem awaitResponse_toLatched : s.awaitResponse.toLatched = s.timeoutCfg := rfl
@[simp] theorem awaitResponse_done : s.awaitResponse.done = s.done := rfl
@[simp] theorem awaitResponse_txnResult : s.awaitResponse.txnResult = s.txnResult := rfl
@[simp] theorem awaitResponse_cmdStatus : s.awaitResponse.cmdStatus = s.cmdStatus := rfl
@[simp] theorem awaitResponse_inputs : s.awaitResponse.inputs = s.inputs := rfl
@[simp] theorem awaitResponse_busResp : s.awaitResponse.busResp = s.busResp := rfl

@[simp] theorem setTicks_cfg (t : Nat) : (s.setTicks t).cfg = s.cfg := rfl
@[simp] theorem setTicks_state (t : Nat) : (s.setTicks t).state = s.state := rfl
@[simp] theorem setTicks_crcAcc (t : Nat) : (s.setTicks t).crcAcc = s.crcAcc := rfl
@[simp] theorem setTicks_reqSlave (t : Nat) : (s.setTicks t).reqSlave = s.reqSlave := rfl
@[simp] theorem setTicks_reqFc (t : Nat) : (s.setTicks t).reqFc = s.reqFc := rfl
@[simp] theorem setTicks_reqPlen (t : Nat) : (s.setTicks t).reqPlen = s.reqPlen := rfl
@[simp] theorem setTicks_reqAddr (t : Nat) : (s.setTicks t).reqAddr = s.reqAddr := rfl
@[simp] theorem setTicks_reqCount (t : Nat) : (s.setTicks t).reqCount = s.reqCount := rfl
@[simp] theorem setTicks_timeoutCfg (t : Nat) : (s.setTicks t).timeoutCfg = s.timeoutCfg := rfl
@[simp] theorem setTicks_pbuf (t : Nat) : (s.setTicks t).pbuf = s.pbuf := rfl
@[simp] theorem setTicks_txFrame (t : Nat) : (s.setTicks t).txFrame = s.txFrame := rfl
@[simp] theorem setTicks_txIdx (t : Nat) : (s.setTicks t).txIdx = s.txIdx := rfl
@[simp] theorem setTicks_rxFrame (t : Nat) : (s.setTicks t).rxFrame = s.rxFrame := rfl
@[simp] theorem setTicks_rxExpect (t : Nat) : (s.setTicks t).rxExpect = s.rxExpect := rfl
@[simp] theorem setTicks_rxOverrun (t : Nat) : (s.setTicks t).rxOverrun = s.rxOverrun := rfl
@[simp] theorem setTicks_ticks (t : Nat) : (s.setTicks t).ticks = BitVec.ofNat 16 t := rfl
@[simp] theorem setTicks_toLatched (t : Nat) : (s.setTicks t).toLatched = s.toLatched := rfl
@[simp] theorem setTicks_done (t : Nat) : (s.setTicks t).done = s.done := rfl
@[simp] theorem setTicks_txnResult (t : Nat) : (s.setTicks t).txnResult = s.txnResult := rfl
@[simp] theorem setTicks_cmdStatus (t : Nat) : (s.setTicks t).cmdStatus = s.cmdStatus := rfl
@[simp] theorem setTicks_inputs (t : Nat) : (s.setTicks t).inputs = s.inputs := rfl
@[simp] theorem setTicks_busResp (t : Nat) : (s.setTicks t).busResp = s.busResp := rfl

@[simp] theorem afterReset_cfg : s.afterReset.cfg = s.cfg := rfl
@[simp] theorem afterReset_state : s.afterReset.state = .idle := rfl
@[simp] theorem afterReset_crcAcc : s.afterReset.crcAcc = 0xFFFF#16 := rfl
@[simp] theorem afterReset_reqSlave : s.afterReset.reqSlave = 0 := rfl
@[simp] theorem afterReset_reqFc : s.afterReset.reqFc = 0 := rfl
@[simp] theorem afterReset_reqPlen : s.afterReset.reqPlen = 0 := rfl
@[simp] theorem afterReset_reqAddr : s.afterReset.reqAddr = 0 := rfl
@[simp] theorem afterReset_reqCount : s.afterReset.reqCount = 0 := rfl
@[simp] theorem afterReset_timeoutCfg : s.afterReset.timeoutCfg = s.cfg.timeoutReset := rfl
@[simp] theorem afterReset_pbuf : s.afterReset.pbuf = [] := rfl
@[simp] theorem afterReset_txFrame : s.afterReset.txFrame = [] := rfl
@[simp] theorem afterReset_txIdx : s.afterReset.txIdx = 0 := rfl
@[simp] theorem afterReset_rxFrame : s.afterReset.rxFrame = [] := rfl
@[simp] theorem afterReset_rxExpect : s.afterReset.rxExpect = 0 := rfl
@[simp] theorem afterReset_rxOverrun : s.afterReset.rxOverrun = false := rfl
@[simp] theorem afterReset_ticks : s.afterReset.ticks = 0 := rfl
@[simp] theorem afterReset_toLatched : s.afterReset.toLatched = 0 := rfl
@[simp] theorem afterReset_done : s.afterReset.done = false := rfl
@[simp] theorem afterReset_txnResult : s.afterReset.txnResult = .none := rfl
@[simp] theorem afterReset_cmdStatus : s.afterReset.cmdStatus = .ok := rfl
@[simp] theorem afterReset_inputs : s.afterReset.inputs = s.inputs := rfl
@[simp] theorem afterReset_busResp : s.afterReset.busResp = s.busResp := rfl

end Sys2Proof.Machine.State
end

