-- ==== Sys2Proof/Laws/HostBus.lean ====
section
/-! SUPPORT. The register map (10_state.md R30): what each offset names, which accesses are accepted, and what an
accepted access does. -/

namespace Sys2Proof.Machine

theorem locate_pbuf {off : BitVec 10} (h : 0x100 ≤ off.toNat) (h' : off.toNat < 0x200) :
    locate off = .pbuf (off.extractLsb' 0 8) := by
  rw [locate, if_neg (by omega), if_pos h']

theorem locate_txbuf {off : BitVec 10} (h : 0x200 ≤ off.toNat) (h' : off.toNat < 0x300) :
    locate off = .txbuf (off.extractLsb' 0 8) := by
  rw [locate, if_neg (by omega), if_neg (by omega), if_pos h']

theorem locate_rxbuf {off : BitVec 10} (h : 0x300 ≤ off.toNat) : locate off = .rxbuf (off.extractLsb' 0 8) := by
  rw [locate, if_neg (by omega), if_neg (by omega), if_neg (by omega)]

theorem locateWord_reserved {k : Nat} (h : 9 ≤ k) : locateWord k = .reserved := by
  obtain ⟨j, rfl⟩ := Nat.exists_eq_add_of_le h
  rw [Nat.add_comm]
  rfl

theorem locate_reserved {off : BitVec 10} (h : 0x024 ≤ off.toNat) (h' : off.toNat < 0x100) :
    locate off = .reserved := by
  rw [locate, if_pos h', locateWord_reserved (by omega)]

theorem locate_offset (r : Reg) : locate r.offset = .register r := by
  cases r <;> rfl

/-- Below 0x024 every offset is in a register's word (R30). -/
theorem locate_register {off : BitVec 10} (h : off.toNat < 0x024) : ∃ r, locate off = .register r := by
  rw [locate, if_pos (by omega)]
  have : off.toNat / 4 < 9 := by omega
  interval_cases off.toNat / 4 <;> exact ⟨_, rfl⟩

/-- The aligned offset of a register is the one R30 gives it. -/
theorem eq_offset_of_locate {off : BitVec 10} {r : Reg} (h : locate off = .register r) (h4 : off.toNat % 4 = 0) :
    off = r.offset := by
  have hlt : off.toNat < 0x024 := by
    by_contra hge
    rcases Nat.lt_or_ge off.toNat 0x100 with h1 | h1
    · rw [locate_reserved (by omega) h1] at h; cases h
    · rcases Nat.lt_or_ge off.toNat 0x200 with h2 | h2
      · rw [locate_pbuf h1 h2] at h; cases h
      · rcases Nat.lt_or_ge off.toNat 0x300 with h3 | h3
        · rw [locate_txbuf h2 h3] at h; cases h
        · rw [locate_rxbuf h3] at h; cases h
  rw [locate, if_pos (by omega)] at h
  apply BitVec.eq_of_toNat_eq
  have h9 : off.toNat / 4 < 9 := by omega
  have hq : off.toNat = 4 * (off.toNat / 4) := by omega
  rw [hq]
  revert h
  interval_cases off.toNat / 4 <;> intro h <;> cases h <;> rfl

/-- The accepted accesses (20_memory.md R46 to R49). -/
theorem accessAccepted_iff (off : BitVec 10) (n : Nat) :
    accessAccepted off n = true ↔
      (n = 1 ∧ 0x100 ≤ off.toNat) ∨ (n = 4 ∧ off.toNat % 4 = 0 ∧ (off.toNat < 0x024 ∨ 0x100 ≤ off.toNat)) := by
  rcases Nat.lt_or_ge off.toNat 0x024 with h0 | h0
  · obtain ⟨r, hr⟩ := locate_register h0
    simp only [accessAccepted, hr, alignedWord, Bool.and_eq_true, beq_iff_eq]
    omega
  · rcases Nat.lt_or_ge off.toNat 0x100 with h1 | h1
    · rw [accessAccepted, locate_reserved h0 h1]
      simp; omega
    · have : accessAccepted off n = (n == 1 || alignedWord off n) := by
        rcases Nat.lt_or_ge off.toNat 0x200 with h2 | h2
        · rw [accessAccepted, locate_pbuf h1 h2]
        · rcases Nat.lt_or_ge off.toNat 0x300 with h3 | h3
          · rw [accessAccepted, locate_txbuf h2 h3]
          · rw [accessAccepted, locate_rxbuf h3]
      simp only [this, alignedWord, Bool.and_eq_true, Bool.or_eq_true, beq_iff_eq]
      omega

theorem accessAccepted_register (r : Reg) : accessAccepted r.offset 4 = true := by
  cases r <;> rfl

/-- An accepted word read of a register returns its word (20_memory.md R51). -/
theorem execHostRead_register (r : Reg) (s : State) :
    execHostRead r.offset 4 s = .next (s.respond (.wordData (s.readReg r))) := by
  rw [execHostRead, if_pos (accessAccepted_register r), locate_offset]

/-- An accepted word write to a register is that register's write (20_memory.md R54 to R56). -/
theorem execHostWrite_register (r : Reg) (v : Word) (s : State) :
    execHostWrite r.offset 4 v s = writeRegister r v s := by
  rw [execHostWrite, if_pos (accessAccepted_register r), locate_offset]

/-- A refused access is answered BusError (20_memory.md R50). -/
theorem execHostRead_refused {off : BitVec 10} {n : Nat} (h : accessAccepted off n = false) (s : State) :
    execHostRead off n s = .next (s.respond .busError) := by
  rw [execHostRead, if_neg (by simp [h])]

theorem execHostWrite_refused {off : BitVec 10} {n : Nat} (h : accessAccepted off n = false) (v : Word) (s : State) :
    execHostWrite off n v s = .next (s.respond .busError) := by
  rw [execHostWrite, if_neg (by simp [h])]

/-- An accepted read above the registers is a buffer read (20_memory.md R52, R53). -/
theorem execHostRead_buffer {off : BitVec 10} {n : Nat} (ha : accessAccepted off n = true) (h : 0x100 ≤ off.toNat)
    (s : State) : execHostRead off n s = readBuffer off n s := by
  rw [execHostRead, if_pos ha]
  rcases Nat.lt_or_ge off.toNat 0x200 with h2 | h2
  · rw [locate_pbuf h h2]
  · rcases Nat.lt_or_ge off.toNat 0x300 with h3 | h3
    · rw [locate_txbuf h2 h3]
    · rw [locate_rxbuf h3]

/-- An accepted write to PBUF stores (20_memory.md R57). -/
theorem execHostWrite_pbuf {off : BitVec 10} {n : Nat} (ha : accessAccepted off n = true) (h : 0x100 ≤ off.toNat)
    (h' : off.toNat < 0x200) (v : Word) (s : State) :
    execHostWrite off n v s = .next ((s.writePbuf (off.extractLsb' 0 8) n v).respond .written) := by
  rw [execHostWrite, if_pos ha, locate_pbuf h h']

/-- An accepted write to TXBUF or RXBUF is ignored (20_memory.md R55). -/
theorem execHostWrite_frameWindow {off : BitVec 10} {n : Nat} (ha : accessAccepted off n = true)
    (h : 0x200 ≤ off.toNat) (v : Word) (s : State) : execHostWrite off n v s = .next (s.respond .written) := by
  rw [execHostWrite, if_pos ha]
  rcases Nat.lt_or_ge off.toNat 0x300 with h3 | h3
  · rw [locate_txbuf h h3]
  · rw [locate_rxbuf h3]

/-- The index of a buffer offset (20_memory.md R52). -/
@[simp] theorem bufferIndex_toNat (off : BitVec 10) : (off.extractLsb' 0 8).toNat = off.toNat % 0x100 := by
  simp [BitVec.extractLsb'_toNat]

/-- A host read that goes on changes the answer on the bus alone. -/
theorem execHostRead_next {off : BitVec 10} {n : Nat} {s t : State} (h : execHostRead off n s = .next t) :
    ∃ r, t = s.respond r := by
  unfold execHostRead readBuffer at h
  split at h
  · split at h <;> try (cases h; exact ⟨_, rfl⟩)
    all_goals
      split at h
      · cases h
      · cases h; exact ⟨_, rfl⟩
  · cases h; exact ⟨_, rfl⟩

end Sys2Proof.Machine
end

