-- ==== Sys2Proof/Laws/Memory.lean ====
section
/-! SUPPORT. The laws of the PBUF storage: reads after writes, the canonical form, and runs of bytes. -/

namespace Sys2Proof.Machine

@[simp] theorem Memory.read_nil (a : Nat) : Memory.read [] a = none := rfl

theorem Memory.wf_nil : Memory.wf [] := List.Pairwise.nil

theorem Memory.within_nil (cap : Nat) : Memory.within [] cap := by simp

/-- A read after a write: the written byte at its address, every other address as before. -/
theorem Memory.read_write (m : Memory) (a : Nat) (b : Byte) (x : Nat) :
    (m.write a b).read x = if x = a then some b else m.read x := by
  induction m with
  | nil => simp only [Memory.write, Memory.read, eq_comm (a := a)]
  | cons c m ih =>
    obtain ⟨k, c⟩ := c
    simp only [Memory.write]
    split
    · simp only [Memory.read, eq_comm]
    · split
      · next h => subst h; simp only [Memory.read]; split_ifs <;> first | rfl | omega
      · simp only [Memory.read, ih]
        by_cases hk : k = x
        · have : x ≠ a := by omega
          simp [hk, this]
        · simp [hk]

@[simp] theorem Memory.read_write_same (m : Memory) (a : Nat) (b : Byte) : (m.write a b).read a = some b := by
  simp [Memory.read_write]

theorem Memory.read_write_other (m : Memory) {a x : Nat} (b : Byte) (h : x ≠ a) :
    (m.write a b).read x = m.read x := by
  simp [Memory.read_write, h]

/-- The addresses a write leaves listed. -/
theorem Memory.mem_write {m : Memory} {a : Nat} {b : Byte} {c : Host.Cell} (h : c ∈ m.write a b) :
    c.1 = a ∨ c ∈ m := by
  induction m with
  | nil => simp [Memory.write] at h; simp [h]
  | cons d m ih =>
    obtain ⟨k, d⟩ := d
    simp only [Memory.write] at h
    split at h
    · rcases List.mem_cons.1 h with rfl | h
      · exact .inl rfl
      · exact .inr h
    · split at h
      · rcases List.mem_cons.1 h with rfl | h
        · exact .inl rfl
        · exact .inr (List.mem_cons_of_mem _ h)
      · rcases List.mem_cons.1 h with rfl | h
        · exact .inr List.mem_cons_self
        · exact (ih h).imp id (List.mem_cons_of_mem _)

/-- A write keeps the canonical form. -/
theorem Memory.wf_write {m : Memory} (hm : m.wf) (a : Nat) (b : Byte) : (m.write a b).wf := by
  induction m with
  | nil => simp [Memory.write]
  | cons d m ih =>
    obtain ⟨k, d⟩ := d
    obtain ⟨hd, hrest⟩ := List.pairwise_cons.1 hm
    simp only [Memory.write]
    split
    · next h =>
      refine List.pairwise_cons.2 ⟨fun c hc => ?_, List.pairwise_cons.2 ⟨hd, hrest⟩⟩
      rcases List.mem_cons.1 hc with rfl | hc
      · exact h
      · exact Nat.lt_trans h (hd c hc)
    · split
      · next h => subst h; exact List.pairwise_cons.2 ⟨hd, hrest⟩
      · next h h' =>
        refine List.pairwise_cons.2 ⟨fun c hc => ?_, ih hrest⟩
        rcases Memory.mem_write hc with hc | hc
        · simp only [hc]; omega
        · exact hd c hc

/-- A stored byte reads back inside the buffer; nothing else changes. -/
theorem Memory.read_store (m : Memory) (cap a : Nat) (b : Byte) (x : Nat) :
    (m.store cap a b).read x = if x = a ∧ x < cap then some b else m.read x := by
  unfold Memory.store
  split
  · next h => rw [Memory.read_write]; exact if_congr ⟨fun e => ⟨e, e ▸ h⟩, And.left⟩ rfl rfl
  · next h => exact (if_neg fun hx : x = a ∧ x < cap => h (hx.1 ▸ hx.2)).symm

theorem Memory.wf_store {m : Memory} (hm : m.wf) (cap a : Nat) (b : Byte) : (m.store cap a b).wf := by
  unfold Memory.store
  split
  · exact Memory.wf_write hm a b
  · exact hm

theorem Memory.within_store {m : Memory} {cap : Nat} (hm : m.within cap) (a : Nat) (b : Byte) :
    (m.store cap a b).within cap := by
  unfold Memory.store
  split
  · next h => exact fun c hc => (Memory.mem_write hc).elim (fun e => e ▸ h) (hm c)
  · exact hm

/-- Past the end of the buffer nothing has been written. -/
theorem Memory.read_eq_none_of_within {m : Memory} {cap : Nat} (hm : m.within cap) {a : Nat} (ha : cap ≤ a) :
    m.read a = none := by
  induction m with
  | nil => rfl
  | cons c m ih =>
    have hc : c.1 < cap := hm c List.mem_cons_self
    have hne : ¬ c.1 = a := by omega
    simp [Memory.read, hne, ih fun d hd => hm d (List.mem_cons_of_mem _ hd)]

/-- A word store is its four byte stores (20_memory.md R57). -/
theorem Memory.read_storeWord (m : Memory) (cap a : Nat) (v : Word) (x : Nat) :
    (m.storeWord cap a v).read x =
      if a ≤ x ∧ x < a + 4 ∧ x < cap then some (byteOf v (x - a)) else m.read x := by
  simp only [Memory.storeWord, Memory.read_store]
  split_ifs <;> first
    | rfl
    | omega
    | (congr 2; omega)

theorem Memory.wf_storeWord {m : Memory} (hm : m.wf) (cap a : Nat) (v : Word) : (m.storeWord cap a v).wf :=
  Memory.wf_store (Memory.wf_store (Memory.wf_store (Memory.wf_store hm ..) ..) ..) ..

theorem Memory.within_storeWord {m : Memory} {cap : Nat} (hm : m.within cap) (a : Nat) (v : Word) :
    (m.storeWord cap a v).within cap :=
  Memory.within_store (Memory.within_store (Memory.within_store (Memory.within_store hm _ _) _ _) _ _) _ _

/-- A run of bytes reads as the list `bs` exactly when each address of it reads as its entry. -/
theorem Memory.readRun_eq_some_iff (m : Memory) (a k : Nat) (bs : List Byte) :
    m.readRun a k = some bs ↔ bs.length = k ∧ ∀ j, j < k → m.read (a + j) = bs[j]? := by
  induction k generalizing a bs with
  | zero => simp [Memory.readRun, eq_comm (a := ([] : List Byte))]
  | succ k ih =>
    simp only [Memory.readRun]
    constructor
    · intro h
      split at h
      · next b l hb hl =>
        obtain ⟨hlen, hj⟩ := (ih (a + 1) l).1 hl
        cases Option.some.inj h
        refine ⟨by simp [hlen], fun j hj' => ?_⟩
        cases j with
        | zero => simpa using hb
        | succ j => simpa [Nat.add_right_comm, Nat.add_assoc] using hj j (by omega)
      · cases h
    · rintro ⟨hlen, hj⟩
      cases bs with
      | nil => simp at hlen
      | cons b l =>
        have h0 : m.read a = some b := by simpa using hj 0 (by omega)
        have h1 : m.readRun (a + 1) k = some l :=
          (ih (a + 1) l).2 ⟨by simpa using hlen, fun j hj' => by
            simpa [Nat.add_right_comm, Nat.add_assoc] using hj (j + 1) (by omega)⟩
        simp [h0, h1]

/-- A run has no value exactly when one of its bytes is unwritten. -/
theorem Memory.readRun_eq_none_iff (m : Memory) (a k : Nat) :
    m.readRun a k = none ↔ ∃ j, j < k ∧ m.read (a + j) = none := by
  induction k generalizing a with
  | zero => simp [Memory.readRun]
  | succ k ih =>
    simp only [Memory.readRun]
    have split_first : (∃ j, j < k + 1 ∧ m.read (a + j) = none) ↔
        m.read a = none ∨ ∃ j, j < k ∧ m.read (a + 1 + j) = none := by
      constructor
      · rintro ⟨j, hj, h⟩
        cases j with
        | zero => exact .inl (by simpa using h)
        | succ j => exact .inr ⟨j, by omega, by simpa [Nat.add_right_comm, Nat.add_assoc] using h⟩
      · rintro (h | ⟨j, hj, h⟩)
        · exact ⟨0, by omega, by simpa using h⟩
        · exact ⟨j + 1, by omega, by simpa [Nat.add_right_comm, Nat.add_assoc] using h⟩
    rw [split_first, ← ih]
    cases m.read a <;> cases m.readRun (a + 1) k <;> simp

end Sys2Proof.Machine
end

