-- ==== Sys2Proof/Laws/Exec.lean ====
section
/-! SUPPORT. Everything an instruction can do, said once: if `exec` answers a next state, that state is one of the
listed updates, under the listed guards. Invariants and frames are case analyses over `Effect`. -/

namespace Sys2Proof.Machine

@[simp] theorem issuedCommand_hostRead (off : BitVec 10) (n : Nat) : issuedCommand (.hostRead off n) = none := rfl
@[simp] theorem issuedCommand_txDone : issuedCommand .txDone = none := rfl
@[simp] theorem issuedCommand_rxByte (b : Byte) : issuedCommand (.rxByte b) = none := rfl
@[simp] theorem issuedCommand_tick : issuedCommand .tick = none := rfl
@[simp] theorem issuedCommand_reset : issuedCommand .reset = none := rfl
@[simp] theorem issuedCommand_reqHdr (v : Word) : issuedCommand (.hostWrite 0x00C#10 4 v) = none := rfl
@[simp] theorem issuedCommand_reqArg (v : Word) : issuedCommand (.hostWrite 0x010#10 4 v) = none := rfl
@[simp] theorem issuedCommand_timeout (v : Word) : issuedCommand (.hostWrite 0x014#10 4 v) = none := rfl

@[simp] theorem writesCmd_hostRead (off : BitVec 10) (n : Nat) : writesCmd (.hostRead off n) = false := rfl
@[simp] theorem writesCmd_txDone : writesCmd .txDone = false := rfl
@[simp] theorem writesCmd_rxByte (b : Byte) : writesCmd (.rxByte b) = false := rfl
@[simp] theorem writesCmd_tick : writesCmd .tick = false := rfl
@[simp] theorem writesCmd_reset : writesCmd .reset = false := rfl

/-- A buffer write issues no command. -/
theorem issuedCommand_buffer {off : BitVec 10} (n : Nat) (v : Word) (h : 0x100 ≤ off.toNat) :
    issuedCommand (.hostWrite off n v) = none := by
  have hne : off ≠ 0 := by rintro rfl; simp at h
  exact if_neg fun hc => hne hc.1

/-- The step relation of the block, one constructor per effect. -/
inductive Effect : Instr → State → State → Prop
  /-- A read, an ignored write or a refused access: only the answer on the bus changes. -/
  | answered {s i} (r : BusResponse) (hc : issuedCommand i = none) (hw : writesCmd i = false)
      (hi : (∃ off n, i = .hostRead off n) ∨ ∃ off n v, i = .hostWrite off n v) : Effect i s (s.respond r)
  /-- A checksum command (40_crc.md R79 to R81). -/
  | crc {s i} (c : Half)
      (hc : issuedCommand i = some .crcInit ∨ (∃ b, issuedCommand i = some (.crcFeed b)) ∨
        ∃ n, issuedCommand i = some (.crcPbuf n))
      (hw : writesCmd i = true) : Effect i s ((s.setCrc c).report .ok)
  /-- BUILD or START while a transaction is outstanding. -/
  | busy {s i} (hc : issuedCommand i = some .build ∨ issuedCommand i = some .start) (hw : writesCmd i = true)
      (hs : s.state ≠ .idle) : Effect i s (s.report .busy)
  /-- BUILD refused for its operands: no frame is left. -/
  | buildRefused {s i} (c : CmdStatus) (hc : issuedCommand i = some .build) (hw : writesCmd i = true)
      (hs : s.state = .idle) (hk : c = .lengthExceeded ∨ c = .txOverflow) : Effect i s ((s.setFrame []).report c)
  /-- BUILD. -/
  | built {s i} (bytes : List Byte) (hc : issuedCommand i = some .build) (hw : writesCmd i = true)
      (hs : s.state = .idle) (hcount : s.reqCount.toNat ≤ s.cfg.maxCount)
      (hlen : s.reqPlen.toNat ≤ s.cfg.txCapacity - 8) (hb : s.payload s.reqPlen.toNat = some bytes) :
      Effect i s ((s.setFrame (s.requestFrame bytes)).report .ok)
  /-- START without a frame, or with one RESP_LEN does not define. -/
  | startRefused {s i} (c : CmdStatus) (hc : issuedCommand i = some .start) (hw : writesCmd i = true)
      (hs : s.state = .idle) (hk : c = .noFrame ∨ c = .unsupportedFunction) : Effect i s (s.report c)
  /-- START. -/
  | started {s i} (len : Nat) (hc : issuedCommand i = some .start) (hw : writesCmd i = true) (hs : s.state = .idle)
      (hf : s.txFrame ≠ []) (hl : respLen s.cfg (fcOf s.txFrame) (countOf s.txFrame) = some len) :
      Effect i s ((s.beginTransaction len).report .ok)
  /-- A word written to CMD that is no command. -/
  | illegal {s i} (hc : issuedCommand i = none) (hw : writesCmd i = true) : Effect i s (s.report .illegalCommand)
  | reqHdr {s} (v : Word) : Effect (.hostWrite 0x00C 4 v) s ((s.writeReqHdr v).respond .written)
  | reqArg {s} (v : Word) : Effect (.hostWrite 0x010 4 v) s ((s.writeReqArg v).respond .written)
  | timeout {s} (v : Word) : Effect (.hostWrite 0x014 4 v) s ((s.writeTimeout v).respond .written)
  | stored {s} (off : BitVec 10) (n : Nat) (v : Word) (hlo : 0x100 ≤ off.toNat) (hhi : off.toNat < 0x200)
      (hn : n = 1 ∨ (n = 4 ∧ off.toNat % 4 = 0)) :
      Effect (.hostWrite off n v) s ((s.writePbuf (off.extractLsb' 0 8) n v).respond .written)
  | txIgnored {s} (hs : s.state ≠ .transmitting) : Effect .txDone s s
  | txAdvanced {s} (hs : s.state = .transmitting) (hi : s.txIdx + 1 < s.txFrame.length) : Effect .txDone s s.advanceTx
  | txLast {s} (hs : s.state = .transmitting) (hi : s.txFrame.length ≤ s.txIdx + 1) : Effect .txDone s s.awaitResponse
  | rxIgnored {s} (b : Byte) (hs : s.state ≠ .awaitingResponse) : Effect (.rxByte b) s s
  | rxStored {s} (b : Byte) (hs : s.state = .awaitingResponse) (hr : s.rxFrame.length < s.cfg.rxCapacity)
      (he : s.rxFrame.length + 1 ≠ s.rxExpect) : Effect (.rxByte b) s (s.setRx (s.rxFrame ++ [b]))
  | rxDropped {s} (b : Byte) (hs : s.state = .awaitingResponse) (hr : s.cfg.rxCapacity ≤ s.rxFrame.length) :
      Effect (.rxByte b) s s.markOverrun
  | completed {s} (b : Byte) (hs : s.state = .awaitingResponse) (hr : s.rxFrame.length < s.cfg.rxCapacity)
      (he : s.rxFrame.length + 1 = s.rxExpect) (hp : parse (s.rxFrame ++ [b]) ≠ .crcError) :
      Effect (.rxByte b) s (s.endTransaction .complete (s.rxFrame ++ [b]))
  | mismatched {s} (b : Byte) (hs : s.state = .awaitingResponse) (hr : s.rxFrame.length < s.cfg.rxCapacity)
      (he : s.rxFrame.length + 1 = s.rxExpect) (hp : parse (s.rxFrame ++ [b]) = .crcError) :
      Effect (.rxByte b) s (s.endTransaction .crcError [])
  | tickIgnored {s} (hs : s.state ≠ .awaitingResponse) : Effect .tick s s
  | ticked {s} (hs : s.state = .awaitingResponse) (hw : s.ticks.toNat + 1 < s.window) :
      Effect .tick s (s.setTicks (s.ticks.toNat + 1))
  | expired {s} (hs : s.state = .awaitingResponse) (hw : s.window ≤ s.ticks.toNat + 1) :
      Effect .tick s ((s.setTicks (s.ticks.toNat + 1)).endTransaction .timedOut [])
  | reset {s} : Effect .reset s s.afterReset

variable {i : Instr} {s t : State}

theorem execBuild_effect (hc : issuedCommand i = some .build) (hw : writesCmd i = true)
    (h : execBuild s = .next t) : Effect i s t := by
  unfold execBuild at h
  split at h
  · next hs => cases h; exact .busy (.inl hc) hw hs
  · next hs =>
    have hs : s.state = .idle := by simpa using hs
    split at h
    · cases h; exact .buildRefused _ hc hw hs (.inl rfl)
    · next hcount =>
      split at h
      · cases h; exact .buildRefused _ hc hw hs (.inr rfl)
      · next hlen =>
        split at h
        · cases h
        · next bytes hb =>
          cases h
          exact .built bytes hc hw hs (Nat.le_of_not_lt hcount) (Nat.le_of_not_lt hlen) hb

theorem execStart_effect (hc : issuedCommand i = some .start) (hw : writesCmd i = true)
    (h : execStart s = .next t) : Effect i s t := by
  unfold execStart at h
  split at h
  · next hs => cases h; exact .busy (.inr hc) hw hs
  · next hs =>
    have hs : s.state = .idle := by simpa using hs
    split at h
    · cases h; exact .startRefused _ hc hw hs (.inl rfl)
    · next hf =>
      split at h
      · cases h; exact .startRefused _ hc hw hs (.inr rfl)
      · next len hl => cases h; exact .started len hc hw hs hf hl

theorem execCrcPbuf_effect {n : BitVec 9} (hc : issuedCommand i = some (.crcPbuf n)) (hw : writesCmd i = true)
    (h : execCrcPbuf n s = .next t) : Effect i s t := by
  unfold execCrcPbuf at h
  split at h
  · cases h
  · cases h; exact .crc _ (.inr (.inr ⟨n, hc⟩)) hw

theorem execTxDone_effect (h : execTxDone s = .next t) : Effect .txDone s t := by
  unfold execTxDone at h
  split at h
  · next hs => cases h; exact .txIgnored hs
  · next hs =>
    have hs : s.state = .transmitting := by simpa using hs
    split at h
    · next hi => cases h; exact .txAdvanced hs hi
    · next hi => cases h; exact .txLast hs (Nat.le_of_not_lt hi)

theorem execRxByte_effect {b : Byte} (h : execRxByte b s = .next t) : Effect (.rxByte b) s t := by
  unfold execRxByte at h
  split at h
  · next hs => cases h; exact .rxIgnored b hs
  · next hs =>
    have hs : s.state = .awaitingResponse := by simpa using hs
    split at h
    · next hr =>
      split at h
      · next he =>
        have he : s.rxFrame.length + 1 = s.rxExpect := by simpa using he
        unfold State.complete at h
        split at h
        · next hp => cases h; exact .completed b hs hr he (by simp [hp])
        · next hp => cases h; exact .mismatched b hs hr he hp
      · next he => cases h; exact .rxStored b hs hr (by simpa using he)
    · next hr => cases h; exact .rxDropped b hs (Nat.le_of_not_lt hr)

theorem execTick_effect (h : execTick s = .next t) : Effect .tick s t := by
  unfold execTick at h
  split at h
  · next hs => cases h; exact .tickIgnored hs
  · next hs =>
    have hs : s.state = .awaitingResponse := by simpa using hs
    split at h
    · next hw => cases h; exact .expired hs hw
    · next hw => cases h; exact .ticked hs (Nat.lt_of_not_le hw)

theorem execCommandWord_effect {v : Word} (hc : issuedCommand i = commandOf v) (hw : writesCmd i = true)
    (h : execCommandWord v s = .next t) : Effect i s t := by
  unfold execCommandWord at h
  unfold commandOf at hc
  cases hd : decodeCommand v with
  | error e => rw [hd] at h hc; cases h; exact .illegal hc hw
  | ok j =>
    have hj := isCommand_of_decode hd
    rw [hd] at h hc
    cases j <;> simp only [Instr.isCommand, Bool.false_eq_true] at hj
    · cases h; exact .crc _ (.inl hc) hw
    · cases h; exact .crc _ (.inr (.inl ⟨_, hc⟩)) hw
    · exact execCrcPbuf_effect hc hw h
    · exact execBuild_effect hc hw h
    · exact execStart_effect hc hw h

theorem execHostRead_effect {off : BitVec 10} {n : Nat} (h : execHostRead off n s = .next t) :
    Effect (.hostRead off n) s t := by
  obtain ⟨r, rfl⟩ := execHostRead_next h
  exact .answered r rfl rfl (.inl ⟨off, n, rfl⟩)

theorem execHostWrite_effect {off : BitVec 10} {n : Nat} {v : Word} (h : execHostWrite off n v s = .next t) :
    Effect (.hostWrite off n v) s t := by
  by_cases hcmd : off = 0 ∧ n = 4
  · obtain ⟨rfl, rfl⟩ := hcmd
    rw [show (0 : BitVec 10) = Reg.cmd.offset from rfl, execHostWrite_register] at h
    exact execCommandWord_effect (by simp [issuedCommand]) rfl h
  · have hc : issuedCommand (.hostWrite off n v) = none := if_neg hcmd
    have hw : writesCmd (.hostWrite off n v) = false := by simpa [writesCmd] using hcmd
    have ignored : ∀ r, Effect (.hostWrite off n v) s (s.respond r) := fun r =>
      .answered r hc hw (.inr ⟨off, n, v, rfl⟩)
    cases ha : accessAccepted off n with
    | false => rw [execHostWrite_refused ha] at h; cases h; exact ignored _
    | true =>
      have hacc := (accessAccepted_iff off n).1 ha
      rcases Nat.lt_or_ge off.toNat 0x100 with h1 | h1
      · obtain ⟨rfl, h4, hlt⟩ : n = 4 ∧ off.toNat % 4 = 0 ∧ off.toNat < 0x024 := by omega
        obtain ⟨r, hr⟩ := locate_register hlt
        obtain rfl := eq_offset_of_locate hr h4
        rw [execHostWrite_register] at h
        cases r <;> first
          | exact absurd ⟨rfl, rfl⟩ hcmd
          | (cases h; exact ignored _)
          | (cases h; exact .reqHdr v)
          | (cases h; exact .reqArg v)
          | (cases h; exact .timeout v)
      · rcases Nat.lt_or_ge off.toNat 0x200 with h2 | h2
        · rw [execHostWrite_pbuf ha h1 h2] at h
          cases h
          exact .stored off n v h1 h2 (by omega)
        · rw [execHostWrite_frameWindow ha h2] at h
          cases h
          exact ignored _

/-- What `exec` does, whenever it answers a next state. -/
theorem exec_effect (h : exec i s = .next t) : Effect i s t := by
  cases i with
  | crcInit => cases h; exact .crc _ (.inl rfl) rfl
  | crcFeed b => cases h; exact .crc _ (.inr (.inl ⟨b, rfl⟩)) rfl
  | crcPbuf n => exact execCrcPbuf_effect rfl rfl h
  | build => exact execBuild_effect rfl rfl h
  | start => exact execStart_effect rfl rfl h
  | hostRead off n => exact execHostRead_effect h
  | hostWrite off n v => exact execHostWrite_effect h
  | txDone => exact execTxDone_effect h
  | rxByte b => exact execRxByte_effect h
  | tick => exact execTick_effect h
  | reset => cases h; exact .reset

/-- No instruction touches the parameters or the pending events. -/
theorem Effect.cfg_inputs (h : Effect i s t) : t.cfg = s.cfg ∧ t.inputs = s.inputs := by
  cases h <;> exact ⟨rfl, rfl⟩

end Sys2Proof.Machine
end

