-- ==== Sys2Proof/Laws/FrameCodec.lean ====
section
/-! SUPPORT. What the codec's views read out of a frame with a trailer (41_frame_codec.md). -/

namespace Sys2Proof.Machine

/-- A halfword is its two bytes, the high one first. -/
theorem append_hi_lo (c : Half) : be16 (hi c) (lo c) = c := by
  unfold be16 lo hi
  ext i h16
  by_cases h8 : i < 8
  · simp [h8, BitVec.getLsbD_eq_getElem h16]
  · have : 8 + (i - 8) = i := by omega
    have : i - 8 < 8 := by omega
    simp [*]

@[simp] theorem le16_lo_hi (c : Half) : le16 (lo c) (hi c) = c := append_hi_lo c

@[simp] theorem be16_hi_lo (c : Half) : be16 (hi c) (lo c) = c := append_hi_lo c

@[simp] theorem lo_le16 (x y : Byte) : lo (le16 x y) = x := by
  unfold le16 lo
  ext i h8
  have : i < 16 := by omega
  simp [*]

@[simp] theorem hi_le16 (x y : Byte) : hi (le16 x y) = y := by
  unfold le16 hi
  ext i h8
  have : 8 + i < 16 := by omega
  simp [*]

@[simp] theorem length_encodeRequest (slave fc : Byte) (addr count : Half) (p : List Byte) :
    (encodeRequest slave fc addr count p).length = 8 + p.length := by
  simp [encodeRequest, requestBody]; omega

@[simp] theorem checkedPart_append_pair (body : List Byte) (x y : Byte) : checkedPart (body ++ [x, y]) = body := by
  simp [checkedPart]

@[simp] theorem trailerOf_append_pair (body : List Byte) (x y : Byte) : trailerOf (body ++ [x, y]) = le16 x y := by
  simp [trailerOf, byteAt]

/-- Every list of two bytes or more is its checked part and a trailer. -/
theorem eq_checkedPart_append {bs : List Byte} (h : 2 ≤ bs.length) :
    ∃ x y, bs = checkedPart bs ++ [x, y] ∧ trailerOf bs = le16 x y := by
  obtain ⟨x, y, hxy⟩ : ∃ x y, bs.drop (bs.length - 2) = [x, y] := by
    have hl : (bs.drop (bs.length - 2)).length = 2 := by simp; omega
    match bs.drop (bs.length - 2), hl with
    | [x, y], _ => exact ⟨x, y, rfl⟩
  have hbs : bs = checkedPart bs ++ [x, y] := by rw [checkedPart, ← hxy, List.take_append_drop]
  exact ⟨x, y, hbs, by conv_lhs => rw [hbs, trailerOf_append_pair]⟩

/-- A body of two bytes or more with its checksum appended parses, into its own bytes (R88). -/
theorem parse_withTrailer (slave fc : Byte) (data : List Byte) :
    parse (withTrailer (slave :: fc :: data)) =
      .ok { slave := slave, fc := fc, data := data, crc := crc16 (slave :: fc :: data) } := by
  have hl : ¬(withTrailer (slave :: fc :: data)).length < 4 := by simp
  rw [parse, if_neg hl]
  rw [withTrailer, dataRegion, checkedPart_append_pair, trailerOf_append_pair, le16_lo_hi, if_pos rfl]
  simp [byteAt]

/-- `parse` answers `ok` only for a list with its own checksum at the end (R88, R90). -/
theorem eq_withTrailer_of_parse_ok {bs : List Byte} {r : Response} (h : parse bs = .ok r) :
    ∃ slave fc data, bs = withTrailer (slave :: fc :: data) := by
  unfold parse at h
  split at h
  · cases h
  · next hl =>
    split at h
    · next hc =>
      obtain ⟨x, y, hbs, ht⟩ := eq_checkedPart_append (bs := bs) (by omega)
      have hlen : 2 ≤ (checkedPart bs).length := by
        have := congrArg List.length hbs
        simp at this; omega
      match hcp : checkedPart bs, hlen with
      | slave :: fc :: data, _ =>
        refine ⟨slave, fc, data, ?_⟩
        rw [ht, hcp] at hc
        rw [hbs, hcp, withTrailer, hc, lo_le16, hi_le16]
    · cases h

end Sys2Proof.Machine
end

