-- ==== Sys2Proof/Laws/PerInstr.lean ====
section
/-! SUPPORT. Statements made for every instruction, one lemma per constructor. -/

namespace Sys2Proof.Laws.EncodesItsRow

/-- The mask and match of the instruction's row of spec/opcode_table.json (30_encoding.md R63); an event's row has none. -/
def row : Instr → Option (Word × Word)
  | .crcInit => some (0xFFFFFFFF#32, 0x01000000#32)
  | .crcFeed _ => some (0xFFFFFF00#32, 0x02000000#32)
  | .crcPbuf _ => some (0xFFFFFE00#32, 0x03000000#32)
  | .build => some (0xFFFFFFFF#32, 0x10000000#32)
  | .start => some (0xFFFFFFFF#32, 0x11000000#32)
  | .hostRead _ _ => none
  | .hostWrite _ _ _ => none
  | .txDone => none
  | .rxByte _ => none
  | .tick => none
  | .reset => none

/-- The instruction's word, if it has one, lies in its own row. -/
def Statement (i : Instr) : Prop :=
  match row i, encode i with
  | some (mask, bits), some w => w &&& mask = bits
  | none, none => True
  | _, _ => False

theorem crcInit : Statement .crcInit := rfl

theorem crcFeed (byte : Byte) : Statement (.crcFeed byte) := by
  show (0x02000000#32 ||| byte.setWidth 32) &&& 0xFFFFFF00#32 = 0x02000000#32
  rw [BitVec.and_or_distrib_right]
  have : byte.setWidth 32 &&& 0xFFFFFF00#32 = 0#32 := by decide +revert
  rw [this]
  rfl

theorem crcPbuf (n : BitVec 9) : Statement (.crcPbuf n) := by
  show (0x03000000#32 ||| n.setWidth 32) &&& 0xFFFFFE00#32 = 0x03000000#32
  rw [BitVec.and_or_distrib_right]
  have : n.setWidth 32 &&& 0xFFFFFE00#32 = 0#32 := by decide +revert
  rw [this]
  rfl

theorem build : Statement .build := rfl
theorem start : Statement .start := rfl
theorem hostRead (off : BitVec 10) (n : Nat) : Statement (.hostRead off n) := trivial
theorem hostWrite (off : BitVec 10) (n : Nat) (v : Word) : Statement (.hostWrite off n v) := trivial
theorem txDone : Statement .txDone := trivial
theorem rxByte (b : Byte) : Statement (.rxByte b) := trivial
theorem tick : Statement .tick := trivial
theorem reset : Statement .reset := trivial

end Sys2Proof.Laws.EncodesItsRow
end

