-- ==== Sys2Proof/Laws/Run.lean ====
section
/-! SUPPORT. Runs of steps: composition, the list of pending events they consume, and the packaged induction. -/

namespace Sys2Proof.Machine

variable {s t : State}

@[simp] theorem runSteps_zero (s : State) : runSteps 0 s = .next s := rfl

theorem runSteps_succ_of_step {u : State} (k : Nat) (h : step s = .next u) : runSteps (k + 1) s = runSteps k u := by
  simp [runSteps, h]

/-- A run that goes on went on at its first step. -/
theorem runSteps_succ_eq_next {k : Nat} : runSteps (k + 1) s = .next t ↔ ∃ u, step s = .next u ∧ runSteps k u = .next t := by
  simp only [runSteps]
  cases step s <;> simp

theorem runSteps_add_eq_next {j k : Nat} :
    runSteps (j + k) s = .next t ↔ ∃ u, runSteps j s = .next u ∧ runSteps k u = .next t := by
  induction j generalizing s with
  | zero => simp
  | succ j ih =>
    rw [Nat.add_right_comm, runSteps_succ_eq_next]
    simp only [runSteps_succ_eq_next, ih]
    constructor
    · rintro ⟨v, hv, u, hu, ht⟩; exact ⟨u, ⟨v, hv, hu⟩, ht⟩
    · rintro ⟨u, ⟨v, hv, hu⟩, ht⟩; exact ⟨v, hv, u, hu, ht⟩

/-- What one step can do: nothing without a pending event; else it drops the event, or runs its instruction. -/
theorem step_cases (h : step s = .next t) :
    (s.inputs = [] ∧ t = s) ∨
    ∃ e rest, s.inputs = e :: rest ∧
      ((fetchInput s.cfg e = none ∧ t = s.withInputs rest) ∨
        ∃ i, fetchInput s.cfg e = some i ∧ Effect i (s.withInputs rest) t) := by
  unfold step at h
  split at h
  · next hs => cases h; exact .inl ⟨hs, rfl⟩
  · next e rest hs =>
    refine .inr ⟨e, rest, hs, ?_⟩
    split at h
    · next hf => cases h; exact .inl ⟨hf, rfl⟩
    · next i hf => exact .inr ⟨i, hf, exec_effect h⟩

/-- The step of a state whose next event is known. -/
theorem step_of_fetch {e : Input} {rest : List Input} {i : Instr} (hs : s.inputs = e :: rest)
    (hf : fetchInput s.cfg e = some i) : step s = exec i (s.withInputs rest) := by
  simp [step, hs, hf]

/-- A step consumes exactly the next event. -/
theorem step_inputs {e : Input} {rest : List Input} (hs : s.inputs = e :: rest) (h : step s = .next t) :
    t.inputs = rest ∧ t.cfg = s.cfg := by
  rcases step_cases h with ⟨hn, -⟩ | ⟨e', rest', he, hx⟩
  · rw [hs] at hn; cases hn
  · rw [hs] at he
    cases he
    rcases hx with ⟨-, rfl⟩ | ⟨i, -, hi⟩
    · exact ⟨rfl, rfl⟩
    · have := hi.cfg_inputs; exact ⟨this.2, this.1⟩

/-- Whatever holds of a state and is kept by every step holds of every state a run reaches. -/
theorem runSteps_keeps {P : State → Prop} (hstep : ∀ u v, P u → step u = .next v → P v) {k : Nat} (hs : P s)
    (h : runSteps k s = .next t) : P t := by
  induction k generalizing s with
  | zero => cases h; exact hs
  | succ k ih =>
    obtain ⟨u, hu, ht⟩ := runSteps_succ_eq_next.1 h
    exact ih (hstep s u hs hu) ht

/-- Induction over the events a run takes: a property indexed by the events still to come. -/
theorem runSteps_events {P : List Input → State → Prop} {rest : List Input}
    (hstep : ∀ e l u v, P (e :: l) u → u.inputs = e :: (l ++ rest) → step u = .next v → P l v)
    {l : List Input} (hs : s.inputs = l ++ rest) (hP : P l s) (h : runSteps l.length s = .next t) :
    P [] t ∧ t.inputs = rest := by
  induction l generalizing s with
  | nil => cases h; exact ⟨hP, hs⟩
  | cons e l ih =>
    obtain ⟨u, hu, ht⟩ := runSteps_succ_eq_next.1 h
    exact ih (step_inputs hs hu).1 (hstep e l s u hP hs hu) ht

end Sys2Proof.Machine
end

