-- ==== Sys2Proof/Tests/Slice0.lean ====
section
/-! SUPPORT. The model's own tests: the well-formedness smoke test, words decoded by hand from 30_encoding.md, vectors of
95_test_vectors.md (named beside each test), and a witness for the hypotheses of every obligation that has some. -/

namespace Sys2Proof.Tests

-- One theorem at a time: each kernel evaluation in flight holds a thread, and its memory, of its own.
set_option Elab.async false

open Sys2Proof.Machine

/-! ### Helpers -/

/-- The next state of an outcome. -/
def nextOf : Result → Option State
  | .next t => some t
  | .fault _ => none
  | .refused _ => none

/-- The state after one instruction. -/
def after (i : Instr) (s : State) : Option State := nextOf (exec i s)

/-- The word a register read returns. -/
def readOf (off : BitVec 10) (s : State) : Option BusResponse := (after (.hostRead off 4) s).map (·.busResp)

/-- Idle after reset with the frame of V-TX: read two input registers of slave 1 at 1000. -/
def built : State :=
  { State.reset with txFrame := [0x01, 0x04, 0x03, 0xE8, 0x00, 0x02, 0xF1, 0xBB] }

/-- That frame being sent, `k` bytes of it done. -/
def sending (k : Nat) : State := { built with state := .transmitting, txIdx := k, rxExpect := 9 }

/-- Its response awaited: the bytes received, the ticks counted and the window. -/
def awaiting (rx : List Byte) (t w : Half) : State :=
  { built with state := .awaitingResponse, txIdx := 8, rxExpect := 9, rxFrame := rx, ticks := t, toLatched := w }

/-- The first eight bytes of the response of V-RX-1, whose last byte is 0x5C. -/
def partialResponse : List Byte := [0x01, 0x04, 0x04, 0x00, 0x1A, 0x00, 0x2B, 0x9A]

/-- The bytes "123456789" in PBUF (V-CC-4). -/
def digits : Memory :=
  [(0, 0x31), (1, 0x32), (2, 0x33), (3, 0x34), (4, 0x35), (5, 0x36), (6, 0x37), (7, 0x38), (8, 0x39)]

/-- The request registers of V-BLD-10: five payload bytes. -/
def staged (p : Memory) : State :=
  { State.reset with reqSlave := 0x01, reqFc := 0x10, reqPlen := 5, reqAddr := 0x0001, reqCount := 0x0002, pbuf := p }

/-- The payload of V-BLD-10. -/
def payload10 : Memory := [(0, 0x04), (1, 0x00), (2, 0x0A), (3, 0x01), (4, 0x02)]

/-! ### Well-formedness refuses ill-formed terms -/

theorem test_wf_pbuf_count : (Instr.crcPbuf 256).wellFormed = true ∧ (Instr.crcPbuf 257).wellFormed = false := by decide
theorem test_wf_read_width : (Instr.hostRead 0x100 4).wellFormed = true ∧ (Instr.hostRead 0x100 2).wellFormed = false := by
  decide
theorem test_wf_write_width : (Instr.hostWrite 0x100 1 0xFF).wellFormed = true ∧
    (Instr.hostWrite 0x100 2 0).wellFormed = false := by decide
theorem test_wf_byte_value : (Instr.hostWrite 0x100 1 0x100).wellFormed = false := by decide

/-! ### Decoding: words written out from 30_encoding.md R64 to R69 -/

theorem test_decode_crc_init : decodeTableWord 32 0b00000001000000000000000000000000 = some .crcInit := by decide
theorem test_decode_crc_feed : decodeTableWord 32 0b00000010000000000000000010100101 = some (.crcFeed 0xA5) := by decide
theorem test_decode_crc_pbuf : decodeTableWord 32 0b00000011000000000000000100000000 = some (.crcPbuf 256) := by decide
theorem test_decode_build : decodeTableWord 32 0b00010000000000000000000000000000 = some .build := by decide
theorem test_decode_start : decodeTableWord 32 0b00010001000000000000000000000000 = some .start := by decide
theorem test_decode_rejects : decodeCommand 0x12000000 = .error .reservedOpcode ∧
    decodeCommand 0x10000001 = .error .reservedOperandBits ∧ decodeCommand 0x02000100 = .error .reservedOperandBits ∧
    decodeCommand 0x03000101 = .error .pbufCountAbove256 := by decide
/-- The six rows without a word: the event each stands for gives the row's instruction. -/
theorem test_fetch_events :
    fetchInput Config.specDefault (.busRead 0x004 4) = some (.hostRead 0x004 4) ∧
    fetchInput Config.specDefault (.busWrite 0x104 1 0x02) = some (.hostWrite 0x104 1 0x02) ∧
    fetchInput Config.specDefault .txDone = some .txDone ∧
    fetchInput Config.specDefault (.rxByte 0x5C) = some (.rxByte 0x5C) ∧
    fetchInput Config.specDefault .tick = some .tick ∧ fetchInput Config.specDefault .reset = some .reset := by decide
theorem test_fetch_word_runs : step (State.reset.withFetchWord 32 0x11000000) = exec .start State.reset := by rfl

/-! ### Vectors of the pure functions (95_test_vectors.md 2.1, 2.4, 2.5) -/

/-- V-CRC-5, V-CRC-7. -/
theorem test_crc16_check_values :
    crc16 [0x31, 0x32, 0x33, 0x34, 0x35, 0x36, 0x37, 0x38, 0x39] = 0x4B37#16 ∧ crc16 [0x01, 0x03] = 0x2140#16 := by
  decide +kernel
/-- V-PAR-3, V-PAR-2, V-PAR-4. -/
theorem test_parse :
    parse [0x01, 0x84, 0x02, 0xC2, 0xC1] = .ok { slave := 0x01, fc := 0x84, data := [0x02], crc := 0xC1C2 } ∧
    parse [0x01, 0x04, 0x04, 0x00, 0x1A, 0x00, 0x2B, 0x9A, 0x5D] = .crcError ∧
    parse [0x01, 0x03, 0x40] = .crcError := by decide +kernel
/-- 2.5: 0x01 at 8 and 9, 0x04 at 128, 0x0F, 0x2B. -/
theorem test_response_lengths :
    respLen Config.specDefault 0x01 8 = some 6 ∧ respLen Config.specDefault 0x01 9 = some 7 ∧
    respLen Config.specDefault 0x04 128 = some 261 ∧ respLen Config.specDefault 0x0F 10 = some 8 ∧
    respLen Config.specDefault 0x2B 1 = none := by decide

/-! ### One step of each instruction -/

/-- V-CC-1. -/
theorem test_crc_init : (after .crcInit { State.reset with crcAcc := 0x1234 }).bind (readOf 0x008) =
    some (.wordData 0x0000FFFF) := by decide
/-- V-CC-2. -/
theorem test_crc_feed : (after (.crcFeed 0x01) State.reset).bind (readOf 0x008) = some (.wordData 0x0000807E) := by
  decide
/-- V-CC-8: a reserved bit; CRC keeps its value. -/
theorem test_crc_feed_reserved_bit :
    (after (.hostWrite 0x000 4 0x02000100) { State.reset with crcAcc := 0x32E4 }).map (fun t => (t.crcAcc, t.cmdStatus)) =
      some (0x32E4, .illegalCommand) := by decide
/-- V-CC-5. -/
theorem test_crc_pbuf : (after (.crcPbuf 6) { State.reset with pbuf := digits, crcAcc := 0x1234 }).map (·.crcAcc) =
    some 0x32E4 := by decide +kernel
/-- V-CC-10. -/
theorem test_crc_pbuf_unwritten : exec (.crcPbuf 4) { State.reset with pbuf := digits.take 3 } = .fault .uninitPayload := by
  rfl
/-- V-BLD-10. -/
theorem test_build : (after .build (staged payload10)).map (·.txFrame) =
    some [0x01, 0x10, 0x00, 0x01, 0x00, 0x02, 0x04, 0x00, 0x0A, 0x01, 0x02, 0x92, 0x30] := by decide +kernel
/-- V-BLD-13: LengthExceeded before TxOverflow, and the old frame is gone. -/
theorem test_build_order : (after .build { built with reqCount := 200, reqPlen := 300 }).map
    (fun t => (t.txFrame, t.cmdStatus)) = some ([], .lengthExceeded) := by decide
/-- V-ST-2 with the frame of V-TX: STATUS and RXINFO. -/
theorem test_start : (after .start built).map (fun t => (t.statusWord, t.readReg .rxInfo, t.txOut)) =
    some (0x00000005, 0x00090000, some 0x01) := by decide
/-- V-ST-5: a refused START keeps the previous outcome. -/
theorem test_start_no_frame : (after .start { State.reset with done := true, txnResult := .timedOut }).map (·.statusWord) =
    some 0x00000438 := by decide
/-- V-TX-2: the third byte done. -/
theorem test_tx_done : (after .txDone (sending 2)).map (fun t => (t.readReg .txInfo, t.txOut)) =
    some (0x80030008, some 0xE8) := by decide
/-- V-TX-3: the last byte done. -/
theorem test_tx_done_last : (after .txDone (sending 7)).map (fun t => (t.readReg .txInfo, t.statusWord, t.readReg .ticks)) =
    some (0x80080008, 0x00000002, 0x00C80000) := by decide
/-- V-RX-1. -/
theorem test_rx_complete : (after (.rxByte 0x5C) (awaiting partialResponse 2 200)).map
    (fun t => (t.statusWord, t.readReg .rxInfo)) = some (0x00000018, 0x00090009) := by decide +kernel
/-- V-RX-2's shape: a wrong last byte discards the frame. -/
theorem test_rx_crc_error : (after (.rxByte 0x5D) (awaiting partialResponse 2 200)).map
    (fun t => (t.statusWord, t.readReg .rxInfo)) = some (0x00000028, 0x00090000) := by decide +kernel
/-- V-TK-3: a window of 0 acts as 1. -/
theorem test_tick_zero_window : (after .tick (awaiting [] 0 0)).map (fun t => (t.statusWord, t.readReg .ticks)) =
    some (0x00000038, 0x00000001) := by decide
/-- V-TK-4. -/
theorem test_tick_expiry : (after .tick (awaiting [0x01] 199 200)).map (fun t => (t.statusWord, t.readReg .ticks)) =
    some (0x00000038, 0x00C800C8) := by decide
/-- V-HA-7: the first word of TXBUF after V-BLD-10. -/
theorem test_host_read_word : ((after .build (staged payload10)).bind (readOf 0x208)) = some (.wordData 0x9202010A) := by
  decide +kernel
/-- V-HA-3: a misaligned word. -/
theorem test_host_read_misaligned : readOf 0x102 State.reset = some .busError := by decide
/-- V-HA-6: a word write to PBUF is little-endian. -/
theorem test_host_write_pbuf : (after (.hostWrite 0x100 4 0x010A0004) State.reset).map (·.pbuf) =
    some [(0, 0x04), (1, 0x00), (2, 0x0A), (3, 0x01)] := by decide
/-- V-HA-10: the reserved bits of REQ_HDR read 0. -/
theorem test_host_write_req_hdr : (after (.hostWrite 0x00C 4 0xFFFFFFFF) State.reset).bind (readOf 0x00C) =
    some (.wordData 0x01FFFFFF) := by decide
/-- V-RS-2. -/
theorem test_reset : (after .reset (sending 3)).map (fun t => (t.de, t.txOut, t.statusWord, t.readReg .timeout)) =
    some (false, none, 0x00000000, 0x000000C8) := by decide

/-! ### Witnesses: a state and operands that meet the hypotheses of each obligation, clause by clause -/

/-- The invariant of a state under the default parameters, from facts that can be computed. -/
theorem inv_of_checks {s : State} (hcfg : s.cfg = Config.specDefault)
    (h : s.pbuf.wf ∧ s.pbuf.within s.cfg.pbufCapacity ∧
      (s.txFrame = [] ∨ (8 ≤ s.txFrame.length ∧ s.txFrame.length ≤ s.cfg.txCapacity)) ∧
      (s.txIdx ≤ s.txFrame.length ∧ (s.state = .transmitting → s.txIdx < s.txFrame.length)) ∧
      (s.state ≠ .idle → s.txFrame ≠ []) ∧
      (s.rxFrame.length ≤ s.cfg.rxCapacity ∧ (s.state = .awaitingResponse → s.rxFrame.length < s.rxExpect)) ∧
      (s.state = .transmitting → s.rxFrame = [] ∧ s.ticks = 0 ∧ s.done = false ∧ s.txnResult = .none) ∧
      (s.state = .awaitingResponse → s.ticks.toNat < max s.toLatched.toNat 1 ∧ s.done = false ∧ s.txnResult = .none) ∧
      (s.done = true ↔ s.txnResult ≠ .none) ∧
      (s.txnResult = .crcError ∨ s.txnResult = .timedOut → s.rxFrame = []) ∧
      (s.txnResult = .complete → s.rxFrame.length = s.rxExpect) ∧
      (s.rxOverrun = true → s.cfg.rxCapacity < s.rxExpect))
    (h' : (s.txFrame ≠ [] → (countOf s.txFrame).toNat ≤ s.cfg.maxCount) ∧ s.rxExpect < 512 ∧
      (s.state ≠ .idle → respLen s.cfg (fcOf s.txFrame) (countOf s.txFrame) = some s.rxExpect) ∧
      (s.txFrame ≠ [] → parse s.txFrame ≠ .crcError) ∧ (s.txnResult = .complete → parse s.rxFrame ≠ .crcError)) :
    Inv s where
  config := hcfg ▸ configOk_specDefault
  pbuf := h.1
  pbufInside := h.2.1
  rule43 := by
    obtain ⟨-, -, a, b, c, d, e, f, g, h, i, j⟩ := h
    exact { a, b, c, d, e, f, g, h, i, j }
  frameCount := h'.1
  expectFits := h'.2.1
  expectIsRespLen := h'.2.2.1
  frameValid := h'.2.2.2.1
  responseValid := h'.2.2.2.2

/-- A response of 261 bytes awaited, FC 3 at count 128 (V-RX-6), with the receive buffer full. -/
def overlong : State :=
  { awaiting (List.replicate 256 0x00) 0 200 with
    txFrame := [0x01, 0x03, 0x00, 0x00, 0x00, 0x80, 0x44, 0x6A], rxExpect := 261 }

theorem inv_reset : Inv State.reset := inv_of_checks rfl (by decide +kernel) (by decide +kernel)
theorem inv_built : Inv built := inv_of_checks rfl (by decide +kernel) (by decide +kernel)
theorem inv_sending_first : Inv (sending 0) := inv_of_checks rfl (by decide +kernel) (by decide +kernel)
theorem inv_sending_last : Inv (sending 7) := inv_of_checks rfl (by decide +kernel) (by decide +kernel)
theorem inv_awaiting : Inv (awaiting partialResponse 199 200) :=
  inv_of_checks rfl (by decide +kernel) (by decide +kernel)
theorem inv_awaiting_fresh : Inv (awaiting [] 0 0) := inv_of_checks rfl (by decide +kernel) (by decide +kernel)
theorem inv_overlong : Inv overlong := inv_of_checks rfl (by decide +kernel) (by decide +kernel)

/-- Some events pending. -/
def withEvents (s : State) (l : List Input) : State := { s with inputs := l }

theorem witness_ResetRestoresEveryField : State.reset.cfg.timeoutReset = 200#16 ∧ 0x200 ≤ (0x200 : BitVec 10).toNat ∧
    0x200 ≤ (0x3FF : BitVec 10).toNat := by decide
theorem witness_ResetAbandonsTransaction :
    (∃ t, exec .reset (sending 3) = .next t) ∧
    ∃ t, (awaiting [] 199 200).state ≠ .idle ∧ exec .tick (awaiting [] 199 200) = .next t ∧ t.state = .idle :=
  ⟨⟨_, rfl⟩, _, by decide, rfl, rfl⟩
theorem witness_InvariantHoldsAfterReset : ConfigOk Config.specDefault := configOk_specDefault
theorem witness_EveryStepKeepsInvariant : Inv (withEvents (sending 7) [.txDone]) ∧
    ∃ t, step (withEvents (sending 7) [.txDone]) = .next t :=
  ⟨inv_of_checks rfl (by decide +kernel) (by decide +kernel), _, rfl⟩
theorem witness_ReachableStatesSatisfyRule43 : ConfigOk Config.specDefault ∧
    ∃ t, runSteps 2 (State.poweredUp Config.specDefault [.tick, .busRead 0x004 4]) = .next t :=
  ⟨configOk_specDefault, _, rfl⟩
theorem witness_DefaultResponseLengths : Config.specDefault.respLenOverride = [] ∧ (128#16).toNat ≤ 128 ∧
    (0x2B : Byte) ∉ [0x01#8, 0x02#8, 0x03#8, 0x04#8, 0x05#8, 0x06#8, 0x0F#8, 0x10#8] := by decide
theorem witness_DecodeOfEncodedCommand : (Instr.crcPbuf 256).wellFormed = true ∧ (Instr.crcPbuf 256).isCommand = true ∧
    (Instr.crcFeed 0xFF).wellFormed = true ∧ (Instr.start).isCommand = true := by decide
theorem witness_EncodeOfDecodedWord : decodeCommand 0x03000100 = .ok (.crcPbuf 256) ∧
    decodeCommand 0x020000FF = .ok (.crcFeed 0xFF) := by decide
theorem witness_StepRunsDecodedInstruction :
    (withEvents State.reset [.tick]).inputs = .tick :: [] ∧ fetchInput Config.specDefault .tick = some .tick ∧
    (Instr.crcPbuf 256).wellFormed = true ∧ encode (.crcPbuf 256) = some 0x03000100 ∧
    (withEvents State.reset [.busWrite 0 4 0x03000100]).inputs = .busWrite State.reset.cfg.base 4 0x03000100 :: [] ∧
    issuedCommand (.hostWrite 0x000 4 0x12000000) = none ∧ Instr.build.isCommand = true ∧
    State.reset.inputs = [] := by decide
theorem witness_BlockDecodesItsWindowOnly :
    let s := { State.reset with cfg := { Config.specDefault with base := 0x1000 } }
    ¬(s.cfg.base ≤ 0xFFF ∧ 0xFFF < s.cfg.base + 0x400) ∧ ¬(s.cfg.base ≤ 0x1400 ∧ 0x1400 < s.cfg.base + 0x400) ∧
    0x1000 = s.cfg.base + (0x000 : BitVec 10).toNat ∧ 0x13FF = s.cfg.base + (0x3FF : BitVec 10).toNat ∧
    (withEvents s [.busRead 0x13FF 1]).inputs = .busRead 0x13FF 1 :: [] ∧
    (withEvents s [.busWrite 0xFFF 4 0]).inputs = .busWrite 0xFFF 4 0 :: [] := by decide
theorem witness_RefusedAccessesAreBusErrors :
    (2 ≠ 1 ∧ 2 ≠ 4) ∧ (0x102 : BitVec 10).toNat % 4 ≠ 0 ∧ (0x0FF : BitVec 10).toNat < 0x100 ∧
    0x024 ≤ (0x024 : BitVec 10).toNat ∧ (0x0FF : BitVec 10).toNat ≤ 0x0FF ∧
    0x100 ≤ (0x100 : BitVec 10).toNat ∧ (0x020 : BitVec 10).toNat ≤ 0x020 ∧
    0x100 ≤ (0x3FC : BitVec 10).toNat ∧ (0x3FC : BitVec 10).toNat % 4 = 0 ∧
    (∃ t, exec (.hostRead 0x020 4) State.reset = .next t) ∧ ∃ t, exec (.hostWrite 0x3FF 1 0) State.reset = .next t :=
  ⟨by decide, by decide, by decide, by decide, by decide, by decide, by decide, by decide, by decide, ⟨_, rfl⟩, _, rfl⟩
theorem witness_ReadOnlyRegistersShowTheState : Inv (sending 7) ∧ Inv overlong := ⟨inv_sending_last, inv_overlong⟩
theorem witness_OperandRegistersReadBack :
    (∃ t, exec (.hostWrite 0x00C 4 0xFFFFFFFF) State.reset = .next t) ∧
    (∃ t, exec (.hostWrite 0x010 4 0xFFFFFFFF) State.reset = .next t) ∧
    ∃ t, exec (.hostWrite 0x014 4 0xFFFFFFFF) State.reset = .next t := ⟨⟨_, rfl⟩, ⟨_, rfl⟩, _, rfl⟩
theorem witness_BufferByteReads :
    let s := { State.reset with pbuf := [(0, 0xAA), (255, 0xBB)] }
    (0x100 ≤ (0x100 : BitVec 10).toNat ∧ (0x100 : BitVec 10).toNat < 0x200) ∧
    (0x100 ≤ (0x1FF : BitVec 10).toNat ∧ (0x1FF : BitVec 10).toNat < 0x200) ∧
    s.pbuf.read (0x100 - 0x100) = some 0xAA ∧ s.pbuf.read (0x1FF - 0x100) = some 0xBB ∧
    s.pbuf.read (0x1FE - 0x100) = none ∧
    (0x200 ≤ (0x200 : BitVec 10).toNat ∧ (0x2FF : BitVec 10).toNat < 0x300) ∧ 0x300 ≤ (0x300 : BitVec 10).toNat ∧
    0x300 ≤ (0x3FF : BitVec 10).toNat := by decide
theorem witness_BufferWordReads :
    0x100 ≤ (0x1FC : BitVec 10).toNat ∧ (0x1FC : BitVec 10).toNat % 4 = 0 ∧ 0x100 ≤ (0x3FC : BitVec 10).toNat ∧
    ReadsByte built 0x200 0x01 ∧ ReadsByte built 0x201 0x04 ∧ ReadsByte built 0x202 0x03 ∧ ReadsByte built 0x203 0xE8 ∧
    exec (.hostRead (0x1FC + 3) 1) { State.reset with pbuf := [(252, 0), (253, 0), (254, 0)] } = .fault .uninitPayload :=
  ⟨by decide, by decide, by decide, rfl, rfl, rfl, rfl, rfl⟩
theorem witness_ReadOnlyLocationsIgnoreWrites :
    (0x004 : BitVec 10).toNat ∈ [0x004, 0x008, 0x018, 0x01C, 0x020] ∧
    (0x020 : BitVec 10).toNat ∈ [0x004, 0x008, 0x018, 0x01C, 0x020] ∧ 0x200 ≤ (0x200 : BitVec 10).toNat ∧
    0x200 ≤ (0x3FF : BitVec 10).toNat ∧ (0x3FC : BitVec 10).toNat % 4 = 0 := by decide
theorem witness_PbufWritesStoreTheirBytes : 256 ≤ State.reset.cfg.pbufCapacity ∧
    (0x100 ≤ (0x100 : BitVec 10).toNat ∧ (0x1FF : BitVec 10).toNat < 0x200) ∧ 0x100 ≤ (0x1FF : BitVec 10).toNat ∧
    (0x1FC : BitVec 10).toNat < 0x200 ∧ (0x1FC : BitVec 10).toNat % 4 = 0 := by decide
theorem witness_ReadsLeaveEveryReadUnchanged :
    let l : List Input := [.busRead 0x004 4, .busRead 0x3FF 1, .busRead 0x400 4]
    (withEvents built (l ++ [.tick])).inputs = l ++ [.tick] ∧ (∀ e ∈ l, ∃ addr n, e = .busRead addr n) ∧
    ∃ t, runSteps l.length (withEvents built (l ++ [.tick])) = .next t := by
  refine ⟨rfl, ?_, _, rfl⟩
  simp
theorem witness_CrcInitSetsInitialValue : ∃ t, exec .crcInit State.reset = .next t := ⟨_, rfl⟩
theorem witness_CrcFeedAccumulatesTheChecksum :
    (withEvents State.reset ([Instr.crcInit, .crcFeed 0x31].map (inputOf State.reset.cfg) ++ [])).inputs =
      (Instr.crcInit :: [0x31#8].map Instr.crcFeed).map (inputOf State.reset.cfg) ++ [] ∧
    (0x02000100 : Word).extractLsb' 24 8 = 0x02#8 ∧ (0x02000100 : Word).extractLsb' 8 16 ≠ 0#16 := by decide
theorem witness_CrcPbufChecksumsTheBuffer :
    (9#9).toNat ≤ 256 ∧ (∀ k, k < (9#9).toNat →
      Memory.read digits k = [0x31#8, 0x32, 0x33, 0x34, 0x35, 0x36, 0x37, 0x38, 0x39][k]?) ∧
    (256#9).toNat ≤ 256 ∧ (∃ k, k < (256#9).toNat ∧ Memory.read digits k = none) ∧ 256 < (257#9).toNat ∧
    256 < (511#9).toNat ∧ (0#9).toNat ≤ 256 ∧ ([] : List Byte).length = (0#9).toNat :=
  ⟨by decide, by decide, by decide, ⟨9, by decide, rfl⟩, by decide, by decide, by decide, by decide⟩
theorem witness_ChecksumUnitIsIndependent :
    (∃ t, exec (.hostRead 0x008 4) State.reset = .next t) ∧ (∃ t, exec (.crcFeed 0) (awaiting [] 1 200) = .next t) ∧ issuedCommand (.rxByte 0x5C) = none ∧
    (after (.rxByte 0x5C) (awaiting partialResponse 1 200)).isSome = true ∧ issuedCommand .build = some .build ∧
    (after .build (staged payload10)).isSome = true := ⟨⟨_, rfl⟩, ⟨_, rfl⟩, rfl, by decide +kernel, rfl, by decide +kernel⟩
theorem witness_SingleBitErrorsChangeTheChecksum : ([0x01#8, 0x0A] : List Byte)[1]? = some 0x0A ∧ 7 < 8 ∧ 0 < 8 := by
  decide
theorem witness_BuildEncodesOrReports :
    (sending 3).state ≠ .idle ∧
    (State.reset.state = .idle ∧ State.reset.cfg.maxCount < (129#16).toNat) ∧
    (128#16).toNat ≤ State.reset.cfg.maxCount ∧ State.reset.cfg.txCapacity - 8 < (249#9).toNat ∧
    (248#9).toNat ≤ State.reset.cfg.txCapacity - 8 ∧
    (∃ k, k < (staged (payload10.take 4)).reqPlen.toNat ∧ (staged (payload10.take 4)).pbuf.read k = none) ∧
    (staged payload10).state = .idle ∧ (staged payload10).reqCount.toNat ≤ (staged payload10).cfg.maxCount ∧
    ([0x04#8, 0x00, 0x0A, 0x01, 0x02] : List Byte).length = (staged payload10).reqPlen.toNat ∧
    ∀ k, k < (staged payload10).reqPlen.toNat →
      (staged payload10).pbuf.read k = ([0x04#8, 0x00, 0x0A, 0x01, 0x02] : List Byte)[k]? :=
  ⟨by decide, by decide, by decide, by decide, by decide, ⟨4, by decide, rfl⟩, by decide, by decide, by decide, by decide⟩
theorem witness_StartBeginsOrReports :
    (sending 0).state ≠ .idle ∧ (State.reset.state = .idle ∧ State.reset.txFrame = []) ∧
    (respLen Config.specDefault (fcOf [0x01, 0x2B, 0x00, 0x00, 0x00, 0x01, 0xE4, 0x0C])
      (countOf [0x01, 0x2B, 0x00, 0x00, 0x00, 0x01, 0xE4, 0x0C]) = none) ∧
    built.state = .idle ∧ built.txFrame ≠ [] ∧
    respLen built.cfg (fcOf built.txFrame) (countOf built.txFrame) = some 9 := by decide +kernel
theorem witness_TxDoneAdvancesTheFrame :
    built.state ≠ .transmitting ∧ (sending 6).state = .transmitting ∧
    (sending 6).txIdx + 1 < (sending 6).txFrame.length ∧ (sending 7).txFrame.length ≤ (sending 7).txIdx + 1 := by decide
theorem witness_RxByteAccumulatesAndCompletes :
    built.state ≠ .awaitingResponse ∧
    (overlong.state = .awaitingResponse ∧ overlong.cfg.rxCapacity ≤ overlong.rxFrame.length) ∧
    ((awaiting [] 0 200).rxFrame.length < (awaiting [] 0 200).cfg.rxCapacity ∧
      (awaiting [] 0 200).rxFrame.length + 1 ≠ (awaiting [] 0 200).rxExpect) ∧
    (awaiting partialResponse 0 200).rxFrame.length + 1 = (awaiting partialResponse 0 200).rxExpect ∧
    parse (partialResponse ++ [0x5C]) =
      .ok { slave := 0x01, fc := 0x04, data := [0x04, 0x00, 0x1A, 0x00, 0x2B], crc := 0x5C9A } ∧
    parse (partialResponse ++ [0x5D]) = .crcError :=
  ⟨by decide, by decide +kernel, by decide, by decide, by decide +kernel, by decide +kernel⟩
theorem witness_TickCountsAndExpires :
    built.state ≠ .awaitingResponse ∧ (awaiting [] 198 200).state = .awaitingResponse ∧
    (awaiting [] 198 200).ticks.toNat + 1 < max (awaiting [] 198 200).toLatched.toNat 1 ∧
    max (awaiting [] 199 200).toLatched.toNat 1 ≤ (awaiting [] 199 200).ticks.toNat + 1 ∧
    max (awaiting [] 0 0).toLatched.toNat 1 ≤ (awaiting [] 0 0).ticks.toNat + 1 := by decide
theorem witness_RequestFrameLayout : 0 < ([0x04#8, 0x00, 0x0A, 0x01, 0x02] : List Byte).length ∧
    4 < ([0x04#8, 0x00, 0x0A, 0x01, 0x02] : List Byte).length := by decide
theorem witness_ChecksumOverTrailerIsZero : 4 ≤ ([0x01#8, 0x03, 0x40, 0x21] : List Byte).length := by decide
theorem witness_StagedOperandsDoNotReachTheEngine : Instr.rxByte 0x5C = .rxByte 0x5C ∧ Instr.start = .start := by decide
theorem witness_ResetForgetsTheBlockState : (sending 3).cfg = State.reset.cfg ∧
    (sending 3).inputs = State.reset.inputs ∧ (sending 3).busResp = State.reset.busResp := by decide
theorem witness_DirectionControl :
    (Inv built ∧ built.de = false ∧ ∃ t, exec .start built = .next t ∧ t.cmdStatus = .ok) ∧
    (Inv (sending 7) ∧ (sending 7).de = true ∧ ∃ t, exec .txDone (sending 7) = .next t) ∧
    ∃ t, exec .reset (sending 7) = .next t :=
  ⟨⟨inv_built, rfl, _, rfl, rfl⟩, ⟨inv_sending_last, rfl, _, rfl⟩, _, rfl⟩
theorem witness_EngineTransitions :
    (Inv built ∧ ∃ t, exec .start built = .next t ∧ t.state ≠ built.state) ∧
    (Inv (sending 7) ∧ ∃ t, exec .txDone (sending 7) = .next t ∧ t.state ≠ (sending 7).state) ∧
    (Inv (awaiting partialResponse 199 200) ∧
      (after (.rxByte 0x5C) (awaiting partialResponse 199 200)).map (·.state) = some .idle ∧
      ∃ t, exec .tick (awaiting partialResponse 199 200) = .next t ∧ t.state = .idle) :=
  ⟨⟨inv_built, _, rfl, by decide⟩, ⟨inv_sending_last, _, rfl, by decide⟩, inv_awaiting, by decide +kernel, _, rfl, rfl⟩
theorem witness_FrameBytesAreOfferedInOrder :
    let l : List Input := [.txDone, .tick]
    let s := withEvents (sending 6) (l ++ [])
    Inv s ∧ s.state = .transmitting ∧ s.inputs = l ++ [] ∧ Input.reset ∉ l ∧
    s.txIdx + l.count .txDone < s.txFrame.length ∧ ∃ t, runSteps l.length s = .next t :=
  ⟨inv_of_checks rfl (by decide +kernel) (by decide +kernel), rfl, rfl, by decide, by decide, _, rfl⟩
theorem witness_LastTxDoneStartsTheWindow :
    let l : List Input := [.txDone, .tick]
    let s := withEvents (sending 6) (l ++ .txDone :: [])
    Inv s ∧ s.state = .transmitting ∧ s.inputs = l ++ .txDone :: [] ∧ Input.reset ∉ l ∧
    s.txIdx + l.count .txDone + 1 = s.txFrame.length ∧ ∃ t, runSteps (l.length + 1) s = .next t :=
  ⟨inv_of_checks rfl (by decide +kernel) (by decide +kernel), rfl, rfl, by decide, by decide, _, rfl⟩
theorem witness_SilentLineHangsTransmission :
    let l : List Input := [.tick, .rxByte 0x01, .busWrite 0 4 0x11000000]
    let s := withEvents (sending 3) (l ++ [])
    s.state = .transmitting ∧ s.inputs = l ++ [] ∧ Input.reset ∉ l ∧ Input.txDone ∉ l ∧
    ∃ t, runSteps l.length s = .next t := ⟨rfl, rfl, by decide, by decide, _, rfl⟩
theorem witness_AwaitingEndsWithinTheWindow :
    let l : List Input := [.rxByte 0x01, .tick, .tick]
    let s := withEvents (awaiting [] 0 2) (l ++ [])
    Inv s ∧ s.state = .awaitingResponse ∧ s.inputs = l ++ [] ∧ Input.reset ∉ l ∧
    max s.toLatched.toNat 1 ≤ s.ticks.toNat + l.count .tick ∧ ∃ t, runSteps l.length s = .next t :=
  ⟨inv_of_checks rfl (by decide +kernel) (by decide +kernel), rfl, rfl, by decide, by decide, _, rfl⟩
theorem witness_SilentSlaveTimesOut :
    let s := withEvents (awaiting [0x01] 198 200) [.tick, .tick]
    Inv s ∧ s.state = .awaitingResponse ∧
    s.inputs = List.replicate (max s.toLatched.toNat 1 - s.ticks.toNat) .tick ++ [] :=
  ⟨inv_of_checks rfl (by decide +kernel) (by decide +kernel), rfl, by decide⟩
theorem witness_WindowIsOneSpan :
    (Inv (awaiting partialResponse 199 200) ∧ (awaiting partialResponse 199 200).state = .awaitingResponse ∧
      ∃ t, exec (.hostWrite 0x014 4 1) (awaiting partialResponse 199 200) = .next t ∧ t.state = .awaitingResponse) ∧
    ∃ t, exec .txDone (sending 7) = .next t ∧ t.toLatched ≠ (sending 7).toLatched :=
  ⟨⟨inv_awaiting, rfl, _, rfl, rfl⟩, _, rfl, by decide⟩
theorem witness_LastByteAgainstExpiringTick :
    let s := awaiting partialResponse 199 200
    s.state = .awaitingResponse ∧ s.rxFrame.length < s.cfg.rxCapacity ∧ s.rxFrame.length + 1 = s.rxExpect ∧
    s.ticks.toNat + 1 = max s.toLatched.toNat 1 ∧
    (withEvents s [.rxByte 0x5C, .tick]).inputs = .rxByte 0x5C :: .tick :: [] ∧
    (withEvents s [.tick, .rxByte 0x5C]).inputs = .tick :: .rxByte 0x5C :: [] := by decide
theorem witness_OverlongResponseEndsTimedOut :
    Inv overlong ∧ overlong.state = .awaitingResponse ∧ overlong.rxFrame.length = overlong.cfg.rxCapacity ∧
    overlong.cfg.rxCapacity < overlong.rxExpect ∧ (∃ t, exec .tick overlong = .next t) ∧
    ∃ t, exec .start { built with rxOverrun := true } = .next t ∧ t.rxOverrun = false :=
  ⟨inv_overlong, rfl, by decide +kernel, by decide, ⟨_, rfl⟩, _, rfl, rfl⟩
theorem witness_OutcomeIsKeptUntilTheNextStart : Inv (awaiting partialResponse 199 200) ∧
    ∃ t, exec .tick (awaiting partialResponse 199 200) = .next t := ⟨inv_awaiting, _, rfl⟩
theorem witness_OnlyCommandsWriteCmdStatus :
    writesCmd (.hostWrite 0x000 4 0x12000000) = true ∧ writesCmd (.hostWrite 0x000 1 0) = false ∧
    ∃ t, exec (.hostWrite 0x000 1 0) State.reset = .next t := ⟨rfl, rfl, _, rfl⟩
theorem witness_EachFieldHasItsWriters :
    (∃ t, exec (.crcFeed 0) State.reset = .next t ∧ t.crcAcc ≠ State.reset.crcAcc ∧ t.busResp ≠ State.reset.busResp) ∧
    (∃ t, exec (.hostWrite 0x00C 4 1) State.reset = .next t ∧ t.reqSlave ≠ State.reset.reqSlave) ∧
    (∃ t, exec (.hostWrite 0x010 4 1) State.reset = .next t ∧ t.reqAddr ≠ State.reset.reqAddr) ∧
    (∃ t, exec (.hostWrite 0x014 4 1) State.reset = .next t ∧ t.timeoutCfg ≠ State.reset.timeoutCfg) ∧
    (∃ t, exec (.hostWrite 0x1FF 1 1) State.reset = .next t ∧ t.pbuf ≠ State.reset.pbuf) ∧
    (∃ t, exec .build State.reset = .next t ∧ t.txFrame ≠ State.reset.txFrame) ∧
    (∃ t, exec .start built = .next t ∧ t.state ≠ built.state ∧ t.rxExpect ≠ built.rxExpect) ∧
    (∃ t, exec .start State.reset = .next t ∧ t.cmdStatus ≠ State.reset.cmdStatus) ∧
    (∃ t, exec .txDone (sending 7) = .next t ∧ t.txIdx ≠ (sending 7).txIdx ∧ t.toLatched ≠ (sending 7).toLatched) ∧
    (∃ t, exec .tick (awaiting [0x01] 199 200) = .next t ∧ t.ticks ≠ 199 ∧ t.rxFrame ≠ [0x01] ∧ t.done ≠ false ∧
      t.txnResult ≠ .none) ∧
    (after (.rxByte 0x00) overlong).map (·.rxOverrun) = some true ∧ overlong.rxOverrun = false :=
  ⟨⟨_, rfl, by decide +kernel, by decide⟩, ⟨_, rfl, by decide⟩, ⟨_, rfl, by decide⟩, ⟨_, rfl, by decide⟩,
    ⟨_, rfl, by decide⟩, ⟨_, rfl, by decide +kernel⟩, ⟨_, rfl, by decide, by decide +kernel⟩, ⟨_, rfl, by decide⟩,
    ⟨_, rfl, by decide, by decide⟩, ⟨_, rfl, by decide, by decide, by decide, by decide⟩, by decide +kernel, rfl⟩
theorem witness_StopsOnlyOnUnwrittenPayload :
    exec (.crcPbuf 1) State.reset = .fault .uninitPayload ∧
    exec .build { State.reset with reqPlen := 1 } = .fault .uninitPayload ∧
    exec (.hostRead 0x1FC 4) State.reset = .fault .uninitPayload := ⟨rfl, rfl, rfl⟩
theorem witness_DutifulTxDoneCountsOneByte :
    Inv (withEvents (sending 7) [.txDone]) ∧ LineDuty (withEvents (sending 7) [.txDone]) ∧
    (withEvents (sending 7) [.txDone]).inputs = .txDone :: [] :=
  ⟨inv_of_checks rfl (by decide +kernel) (by decide +kernel), fun _ => by decide, rfl⟩
theorem witness_TransactionEndToEnd :
    let resp := partialResponse ++ [0x5C]
    let s := withEvents built (.busWrite 0 4 0x11000000 :: (List.replicate 8 .txDone ++ resp.map .rxByte ++ []))
    Inv s ∧ s.state = .idle ∧ s.txFrame ≠ [] ∧
    respLen s.cfg (fcOf s.txFrame) (countOf s.txFrame) = some resp.length ∧ resp.length ≤ s.cfg.rxCapacity ∧
    s.inputs = .busWrite s.cfg.base 4 0x11000000#32 ::
      (List.replicate s.txFrame.length .txDone ++ resp.map .rxByte ++ []) ∧
    parse resp = .ok { slave := 0x01, fc := 0x04, data := [0x04, 0x00, 0x1A, 0x00, 0x2B], crc := 0x5C9A } ∧
    parse (partialResponse ++ [0x5D]) = .crcError :=
  ⟨inv_of_checks rfl (by decide +kernel) (by decide +kernel), rfl, by decide, by decide +kernel, by decide, by decide,
    by decide +kernel, by decide +kernel⟩

theorem witness_TicksViewIsKeptAfterTheTransaction :
    let l : List Input := [.tick, .busWrite 0 4 0x11000000]
    let s := withEvents { built with ticks := 2, toLatched := 200 } (l ++ [])
    s.state = .idle ∧ s.inputs = l ++ [] ∧ Input.reset ∉ l ∧
    (∃ t, runSteps l.length s = .next t ∧ t.state = .transmitting ∧ t.toLatched = 200) ∧
    (∃ t, runSteps 1 s = .next t ∧ t.state = .idle ∧ t.ticks = 2) ∧
    ∀ (j : Nat) (u : State), j ≤ l.length → runSteps j s = .next u → u.state ≠ .awaitingResponse := by
  refine ⟨rfl, rfl, by decide, ⟨_, rfl, rfl, rfl⟩, ⟨_, rfl, rfl, rfl⟩, fun j u hj h => ?_⟩
  have hj : j ≤ 2 := hj
  interval_cases j <;> cases h <;> decide

/-- A machine with a payload buffer of 6 bytes, one byte of it written. -/
def shortBuffer : State :=
  { State.reset with cfg := { Config.specDefault with pbufCapacity := 6 }, pbuf := [(0, 0xAA)], reqPlen := 7 }

theorem inv_shortBuffer : Inv shortBuffer where
  config := { configOk_specDefault with pbufCapacity := by decide }
  pbuf := by decide
  pbufInside := by decide
  rule43 := by constructor <;> decide
  frameCount := by decide
  expectFits := by decide
  expectIsRespLen := by decide
  frameValid := by decide
  responseValid := by decide

/-- R9: the part of a word write inside the buffer is stored, little-endian (R57). -/
theorem test_host_write_pbuf_capacity : (after (.hostWrite 0x104 4 0x04030201) shortBuffer).map (·.pbuf) =
    some [(0, 0xAA), (4, 0x01), (5, 0x02)] := by decide +kernel
theorem witness_PbufWritesStayInsideTheBuffer :
    (0x100 ≤ (0x105 : BitVec 10).toNat ∧ (0x106 : BitVec 10).toNat < 0x200) ∧ (0x104 : BitVec 10).toNat % 4 = 0 ∧
    (0x104 : BitVec 10).toNat - 0x100 + 1 < shortBuffer.cfg.pbufCapacity ∧ shortBuffer.cfg.pbufCapacity ≤ 6 := by decide
theorem witness_PayloadBufferEndsAtItsCapacity :
    Inv shortBuffer ∧ 0x100 + shortBuffer.cfg.pbufCapacity ≤ (0x106 : BitVec 10).toNat ∧
    (0x106 : BitVec 10).toNat < 0x200 ∧ shortBuffer.cfg.pbufCapacity < (7#9).toNat ∧ shortBuffer.state = .idle ∧
    shortBuffer.reqCount.toNat ≤ shortBuffer.cfg.maxCount ∧
    shortBuffer.reqPlen.toNat ≤ shortBuffer.cfg.txCapacity - 8 ∧
    shortBuffer.cfg.pbufCapacity < shortBuffer.reqPlen.toNat :=
  ⟨inv_shortBuffer, by decide, by decide, by decide, by decide, by decide, by decide, by decide⟩

end Sys2Proof.Tests
end

section
/-! Proofs of the family 00_scope: the parameters (O7, O8), the payload buffer under any PBUF_CAPACITY (O58, O59) and the
step of a decoded event (O14). -/

namespace Sys2Proof

/-- The word of a well-formed command decodes to that command (30_encoding.md R64 to R68). -/
theorem decodeCommand_of_encode {i : Instr} {w : Word} (hwf : i.wellFormed = true) (he : encode i = some w) :
    decodeCommand w = .ok i := by
  cases i with
  | crcInit => cases he; rfl
  | crcFeed byte =>
    cases he
    have hreserved : (0x02000000#32 ||| byte.setWidth 32).extractLsb' 8 16 = 0 := by decide +revert
    have hbyte : (0x02000000#32 ||| byte.setWidth 32).extractLsb' 0 8 = byte := by decide +revert
    simp [decodeCommand, decodeCrcFeed, hreserved, hbyte]
  | crcPbuf n =>
    cases he
    have hreserved : (0x03000000#32 ||| n.setWidth 32).extractLsb' 9 15 = 0 := by decide +revert
    have hcount : (0x03000000#32 ||| n.setWidth 32).extractLsb' 0 9 = n := by decide +revert
    have hle : pbufCountOk n = true := hwf
    simp [decodeCommand, decodeCrcPbuf, hreserved, hcount, hle]
  | build => cases he; rfl
  | start => cases he; rfl
  | hostRead off n => cases he
  | hostWrite off n v => cases he
  | txDone => cases he
  | rxByte b => cases he
  | tick => cases he
  | reset => cases he

namespace Machine

/-! The instructions' meanings, as `exec` runs them. -/

theorem exec_crcPbuf (n : BitVec 9) (s : State) : exec (.crcPbuf n) s = execCrcPbuf n s := rfl
theorem exec_build (s : State) : exec .build s = execBuild s := rfl
theorem exec_hostRead (off : BitVec 10) (n : Nat) (s : State) : exec (.hostRead off n) s = execHostRead off n s := rfl
theorem exec_hostWrite (off : BitVec 10) (n : Nat) (v : Word) (s : State) :
    exec (.hostWrite off n v) s = execHostWrite off n v s := rfl

/-! ### The parameters -/

/-- Settles O7: 253 is the largest count whose default length, 5 + 2 · count (R96), fits in the 511 of R97. -/
theorem defaultTableServesCountsUpTo253 : Obligations.DefaultTableServesCountsUpTo253 := by
  intro m
  constructor
  · intro h
    by_contra hm
    have hlen := h.respLen 0x03#8 254#16 513 (show 254 ≤ m by omega) (by rw [respLen_no_override rfl]; rfl)
    omega
  · intro hm
    obtain ⟨hrx, htx, hpb, -, -⟩ := configOk_specDefault
    refine ⟨hrx, htx, hpb, show m ≤ 65535 by omega, fun fc count len hcount h => ?_⟩
    rw [respLen_no_override rfl] at h
    have hrange := defaultRespLen_range h
    have : count.toNat ≤ m := hcount
    omega

/-- RESP_LEN is `f` where the entries agree with `f` and one stands for every function code and count. -/
theorem respLen_of_mem_iff {l : List RespLenEntry} {f : Byte → Half → Option Nat}
    (hl : ∀ fc count len, ⟨fc, count, len⟩ ∈ l ↔ len = f fc count) (fc : Byte) (count : Half) :
    respLen { Config.specDefault with respLenOverride := l } fc count = f fc count := by
  unfold respLen
  split
  · next e he =>
    obtain ⟨rfl, rfl⟩ : e.fc = fc ∧ e.count = count := by simpa using List.find?_some he
    exact (hl _ _ _).1 (List.mem_of_find?_eq_some he)
  · next hnone =>
    have hmissing := List.find?_eq_none.1 hnone ⟨fc, count, f fc count⟩ ((hl _ _ _).2 rfl)
    simp at hmissing

/-- The table that lists every function code and count with its length under `f` (notes/assumptions/4.md). -/
def respLenTable (f : Byte → Half → Option Nat) : List RespLenEntry :=
  (List.finRange (2 ^ 8)).flatMap fun x => (List.finRange (2 ^ 16)).map fun y =>
    ⟨.ofFin x, .ofFin y, f (.ofFin x) (.ofFin y)⟩

theorem mem_respLenTable {f : Byte → Half → Option Nat} {fc : Byte} {count : Half} {len : Option Nat} :
    ⟨fc, count, len⟩ ∈ respLenTable f ↔ len = f fc count := by
  simp only [respLenTable, List.mem_flatMap, List.mem_map, List.mem_finRange, true_and, RespLenEntry.mk.injEq]
  constructor
  · rintro ⟨x, y, rfl, rfl, rfl⟩; rfl
  · rintro rfl; exact ⟨fc.toFin, count.toFin, rfl, rfl, rfl⟩

/-- Settles O8: the configuration whose override is the whole table of the function. -/
theorem everyResponseLengthFunctionIsConfigurable : Obligations.EveryResponseLengthFunctionIsConfigurable := fun f =>
  ⟨{ Config.specDefault with respLenOverride := respLenTable f }, respLen_of_mem_iff fun _ _ _ => mem_respLenTable⟩

/-! ### The payload buffer -/

/-- The byte a PBUF offset reads as (20_memory.md R52). -/
theorem bufferByte_pbuf {off : BitVec 10} (h : 0x100 ≤ off.toNat) (h' : off.toNat < 0x200) (s : State) :
    s.bufferByte off = s.pbuf.read (off.toNat - 0x100) := by
  have hidx : off.toNat % 0x100 = off.toNat - 0x100 := by omega
  simp [State.bufferByte, locate_pbuf h h', hidx]

/-- An accepted byte write to PBUF, read back at any address (20_memory.md R57, 00_scope.md R9). -/
theorem read_writePbuf_byte (s : State) (i : Byte) (v : Word) (a : Nat) :
    (s.writePbuf i 1 v).pbuf.read a =
      if a = i.toNat ∧ a < s.cfg.pbufCapacity then some (byteOf v 0) else s.pbuf.read a :=
  Memory.read_store ..

/-- An accepted word write to PBUF, read back at any address (20_memory.md R57, 00_scope.md R9). -/
theorem read_writePbuf_word (s : State) (i : Byte) (v : Word) (a : Nat) :
    (s.writePbuf i 4 v).pbuf.read a =
      if i.toNat ≤ a ∧ a < i.toNat + 4 ∧ a < s.cfg.pbufCapacity then some (byteOf v (a - i.toNat))
      else s.pbuf.read a :=
  Memory.read_storeWord ..

/-- Settles O58: the write stores through `Memory.store`, which stops at the capacity. -/
theorem pbufWritesStayInsideTheBuffer : Obligations.PbufWritesStayInsideTheBuffer := by
  intro s off v hlo hhi
  have hidx : (off.extractLsb' 0 8).toNat = off.toNat - 0x100 := by rw [bufferIndex_toNat]; omega
  have hwrite (n : Nat) (ha : accessAccepted off n = true) : exec (.hostWrite off n v) s =
      .next { s with pbuf := (s.writePbuf (off.extractLsb' 0 8) n v).pbuf, busResp := .written } :=
    execHostWrite_pbuf ha hlo hhi v s
  constructor
  · refine ⟨_, hwrite 1 ((accessAccepted_iff off 1).2 (.inl ⟨rfl, hlo⟩)), fun a => ?_⟩
    rw [read_writePbuf_byte, hidx]
    rfl
  · intro h4
    refine ⟨_, hwrite 4 ((accessAccepted_iff off 4).2 (.inr ⟨rfl, h4, .inr hlo⟩)), fun k hk hcap => ?_, fun a ha => ?_⟩
    · rw [read_writePbuf_word, hidx, if_pos (by omega), Nat.add_sub_cancel_left, byteOf]
    · rw [read_writePbuf_word, hidx, if_neg (by omega)]

/-- A payload longer than the buffer has an unwritten byte (40_crc.md R81, 41_frame_codec.md R95). -/
theorem payload_eq_none_of_capacity_lt {s : State} (h : s.pbuf.within s.cfg.pbufCapacity) {n : Nat}
    (hn : s.cfg.pbufCapacity < n) : s.payload n = none :=
  (Memory.readRun_eq_none_iff ..).2 ⟨_, hn, Memory.read_eq_none_of_within h (Nat.le_add_left ..)⟩

/-- Settles O59: by the invariant nothing is written at or past the capacity, and each of the three reads a byte there. -/
theorem payloadBufferEndsAtItsCapacity : Obligations.PayloadBufferEndsAtItsCapacity := by
  intro s hInv
  refine ⟨fun off hcap hhi => ?_, fun n hn => ?_, fun hidle hcount hplen hcap => ?_⟩
  · have hlo : 0x100 ≤ off.toNat := by omega
    have hnone : s.pbuf.read (off.toNat - 0x100) = none :=
      Memory.read_eq_none_of_within hInv.pbufInside (by omega)
    rw [exec_hostRead, execHostRead_buffer ((accessAccepted_iff off 1).2 (.inl ⟨rfl, hlo⟩)) hlo]
    simp [readBuffer, State.bufferRead, bufferByte_pbuf hlo hhi, hnone]
  · simp [exec_crcPbuf, execCrcPbuf, payload_eq_none_of_capacity_lt hInv.pbufInside hn]
  · rw [exec_build, execBuild, if_neg (not_not.2 hidle), if_neg (Nat.not_lt.2 hcount), Config.frameOverhead,
      if_neg (Nat.not_lt.2 hplen), payload_eq_none_of_capacity_lt hInv.pbufInside hcap]

/-! ### The step of a decoded event -/

/-- The host's word write of a well-formed command's word to CMD is fetched as that command (20_memory.md R56). -/
theorem fetchInput_commandWrite (cfg : Config) {i : Instr} {w : Word} (hwf : i.wellFormed = true)
    (he : encode i = some w) : fetchInput cfg (.busWrite cfg.base 4 w) = some i := by
  have hoff : windowOffset cfg cfg.base = some 0 := windowOffset_base cfg 0
  simp [fetchInput, hoff, fetchWrite, commandOf_eq_some_iff.2 (decodeCommand_of_encode hwf he)]

/-- A write that issues no command is fetched as itself. -/
theorem fetchWrite_of_issuedCommand_eq_none {off : BitVec 10} {n : Nat} {v : Word}
    (h : issuedCommand (.hostWrite off n v) = none) : fetchWrite off n v = .hostWrite off n v := by
  rcases fetchWrite_cases off n v with ⟨hoff, hn, hcmd⟩ | hself
  · rw [issuedCommand, if_pos ⟨hoff, hn⟩, hcmd] at h
    cases h
  · exact hself

/-- A well-formed instruction that is no command written through HOST_WRITE is fetched from its own event. -/
theorem fetchInput_inputOf (cfg : Config) {i : Instr} (hwf : i.wellFormed = true)
    (hi : issuedCommand i = none ∨ i.isCommand = true) : fetchInput cfg (inputOf cfg i) = some i := by
  cases i with
  | crcInit => exact fetchInput_commandWrite cfg hwf rfl
  | crcFeed byte => exact fetchInput_commandWrite cfg hwf rfl
  | crcPbuf n => exact fetchInput_commandWrite cfg hwf rfl
  | build => exact fetchInput_commandWrite cfg hwf rfl
  | start => exact fetchInput_commandWrite cfg hwf rfl
  | hostRead off n => simp [inputOf, fetchInput]
  | hostWrite off n v =>
    have hnone : issuedCommand (.hostWrite off n v) = none := hi.resolve_right Bool.false_ne_true
    simp [inputOf, fetchInput, fetchWrite_of_issuedCommand_eq_none hnone]
  | txDone => rfl
  | rxByte b => rfl
  | tick => rfl
  | reset => rfl

/-- Settles O14: `step` on a known event is `exec` of what it is fetched as. -/
theorem stepRunsDecodedInstruction : Obligations.StepRunsDecodedInstruction :=
  ⟨fun _ _ _ _ hs hf => step_of_fetch hs hf,
    fun s _ _ _ hwf he hs => step_of_fetch hs (fetchInput_commandWrite s.cfg hwf he),
    fun cfg _ hwf hi => fetchInput_inputOf cfg hwf hi,
    fun s hs => by simp [step, hs]⟩

end Machine

end Sys2Proof
end

section
/-! Proofs of the family 10_state: the invariant of R43 (O4, O5, O6). -/

namespace Sys2Proof.Machine

/-! ### The invariant, one lemma for each update of the state -/

section

variable {i : Instr} {s t : State}

/-- The fields `Inv` does not speak of may take any value. -/
theorem Inv.of_unread (h : Inv s) {crc addr count timeout : Half} {slave fc : Byte} {plen : BitVec 9}
    {c : CmdStatus} {l : List Input} {r : BusResponse} :
    Inv { s with
      crcAcc := crc, reqSlave := slave, reqFc := fc, reqPlen := plen, reqAddr := addr, reqCount := count,
      timeoutCfg := timeout, cmdStatus := c, inputs := l, busResp := r } :=
  { h with rule43 := { h.rule43 with } }

/-- The state after reset meets the invariant whatever the parameters (R43, R44). -/
theorem inv_poweredUp {cfg : Config} (h : ConfigOk cfg) (l : List Input) : Inv (State.poweredUp cfg l) where
  config := h
  pbuf := Memory.wf_nil
  pbufInside := Memory.within_nil _
  rule43 := by constructor <;> simp [State.poweredUp, State.reset]
  frameCount := absurd rfl
  expectFits := Nat.zero_lt_succ _
  expectIsRespLen := absurd rfl
  frameValid := absurd rfl
  responseValid := by simp [State.poweredUp, State.reset]

theorem Inv.afterReset (h : Inv s) : Inv s.afterReset :=
  (inv_poweredUp h.config s.inputs).of_unread

theorem Inv.writePbuf (h : Inv s) (a : Byte) (n : Nat) (v : Word) : Inv (s.writePbuf a n v) :=
  { h with
    rule43 := { h.rule43 with }
    pbuf := by
      rw [State.writePbuf_pbuf]
      split
      · exact Memory.wf_store h.pbuf ..
      · exact Memory.wf_storeWord h.pbuf ..
    pbufInside := by
      rw [State.writePbuf_pbuf]
      split
      · exact Memory.within_store h.pbufInside _ _
      · exact Memory.within_storeWord h.pbufInside _ _ }

/-- What a request frame is when BUILD leaves one (41_frame_codec.md R86, R87, R94). -/
structure FrameOk (cfg : Config) (f : List Byte) : Prop where
  length : 8 ≤ f.length ∧ f.length ≤ cfg.txCapacity
  count : (countOf f).toNat ≤ cfg.maxCount
  valid : parse f ≠ .crcError

theorem countOf_encodeRequest (slave fc : Byte) (addr count : Half) (p : List Byte) :
    countOf (encodeRequest slave fc addr count p) = count := by
  simp [countOf, encodeRequest, withTrailer, requestBody, byteAt]

/-- A request whose count and payload pass BUILD's two tests leaves such a frame. -/
theorem frameOk_requestFrame (h : ConfigOk s.cfg) (hcount : s.reqCount.toNat ≤ s.cfg.maxCount) {p : List Byte}
    (hp : p.length ≤ s.cfg.txCapacity - 8) : FrameOk s.cfg (s.requestFrame p) where
  length := by
    have := h.txCapacity
    rw [State.requestFrame, length_encodeRequest]
    omega
  count := by rwa [State.requestFrame, countOf_encodeRequest]
  valid := by
    rw [State.requestFrame, encodeRequest, requestBody, List.cons_append, List.cons_append, parse_withTrailer]
    exact Parsed.noConfusion

/-- In Idle the frame may become none or a valid one. -/
theorem Inv.setFrame (h : Inv s) (hs : s.state = .idle) {f : List Byte} (hf : f ≠ [] → FrameOk s.cfg f) :
    Inv (s.setFrame f) :=
  { h with
    rule43 := { h.rule43 with
      a := (em (f = [])).imp_right fun hne => (hf hne).length
      b := ⟨Nat.zero_le _, fun htx => by simp [hs] at htx⟩
      c := fun hne => absurd hs hne }
    frameCount := fun hne => (hf hne).count
    expectIsRespLen := fun hne => absurd hs hne
    frameValid := fun hne => (hf hne).valid }

/-- The length a START takes from a built frame is in the range of R97. -/
theorem Inv.respLen_range (h : Inv s) (hf : s.txFrame ≠ []) {len : Nat}
    (hl : respLen s.cfg (fcOf s.txFrame) (countOf s.txFrame) = some len) : 4 ≤ len ∧ len ≤ 511 :=
  h.config.respLen _ _ _ (h.frameCount hf) hl

theorem Inv.beginTransaction (h : Inv s) (hf : s.txFrame ≠ []) {len : Nat}
    (hl : respLen s.cfg (fcOf s.txFrame) (countOf s.txFrame) = some len) : Inv (s.beginTransaction len) :=
  { h with
    rule43 := {
      a := h.rule43.a
      b := ⟨Nat.zero_le _, fun _ => List.length_pos_iff.2 hf⟩
      c := fun _ => hf
      d := ⟨Nat.zero_le _, by simp⟩
      e := fun _ => ⟨rfl, rfl, rfl, rfl⟩
      f := by simp
      g := by simp
      h := by simp
      i := by simp
      j := by simp }
    expectFits := Nat.lt_succ_of_le (h.respLen_range hf hl).2
    expectIsRespLen := fun _ => hl
    responseValid := by simp }

theorem Inv.advanceTx (h : Inv s) (hi : s.txIdx + 1 < s.txFrame.length) : Inv s.advanceTx :=
  { h with rule43 := { h.rule43 with b := ⟨Nat.le_of_lt hi, fun _ => hi⟩ } }

/-- The window opens with no tick counted and no byte received, and a byte is expected. -/
theorem Inv.awaitResponse (h : Inv s) (hs : s.state = .transmitting) : Inv s.awaitResponse := by
  obtain ⟨hrx, -, hdone, hres⟩ := h.rule43.e hs
  have hbusy : s.state ≠ .idle := by simp [hs]
  have hlen := h.respLen_range (h.rule43.c hbusy) (h.expectIsRespLen hbusy)
  exact { h with
    rule43 := { h.rule43 with
      b := ⟨h.rule43.b.2 hs, by simp⟩
      c := fun _ => h.rule43.c hbusy
      d := ⟨h.rule43.d.1, fun _ => by simp [hrx]; omega⟩
      e := by simp
      f := fun _ => ⟨by simp, hdone, hres⟩ }
    expectIsRespLen := fun _ => h.expectIsRespLen hbusy }

theorem Inv.setRx (h : Inv s) (hs : s.state = .awaitingResponse) {rx : List Byte} (hcap : rx.length ≤ s.cfg.rxCapacity)
    (hlen : rx.length < s.rxExpect) : Inv (s.setRx rx) := by
  obtain ⟨-, -, hres⟩ := h.rule43.f hs
  exact { h with
    rule43 := { h.rule43 with
      d := ⟨hcap, fun _ => hlen⟩
      e := by simp [hs]
      h := by simp [hres]
      i := by simp [hres] }
    responseValid := by simp [hres] }

theorem Inv.markOverrun (h : Inv s) (hlen : s.cfg.rxCapacity < s.rxExpect) : Inv s.markOverrun :=
  { h with rule43 := { h.rule43 with j := fun _ => hlen } }

theorem Inv.setTicks (h : Inv s) (hs : s.state ≠ .transmitting) {n : Nat}
    (hn : s.state = .awaitingResponse → n < s.window) : Inv (s.setTicks n) :=
  { h with
    rule43 := { h.rule43 with
      e := fun he => absurd he hs
      f := fun ha => ⟨Nat.lt_of_le_of_lt (by simp [Nat.mod_le]) (hn ha), (h.rule43.f ha).2⟩ } }

/-- A transaction may end with any outcome; Complete keeps a validated frame of the expected length, the other two
none. -/
theorem Inv.endTransaction (h : Inv s) {r : TxnResult} {rx : List Byte} (hr : r ≠ .none)
    (hcap : rx.length ≤ s.cfg.rxCapacity) (hbad : r = .crcError ∨ r = .timedOut → rx = [])
    (hgood : r = .complete → rx.length = s.rxExpect ∧ parse rx ≠ .crcError) : Inv (s.endTransaction r rx) :=
  { h with
    rule43 := { h.rule43 with
      b := ⟨h.rule43.b.1, by simp⟩
      c := by simp
      d := ⟨hcap, by simp⟩
      e := by simp
      f := by simp
      g := by simp [hr]
      h := hbad
      i := fun hc => (hgood hc).1 }
    expectIsRespLen := by simp
    responseValid := fun hc => (hgood hc).2 }

/-- Every instruction keeps the invariant: the updates above, under the guards of the effect. -/
theorem Effect.keeps_inv (he : Effect i s t) (h : Inv s) : Inv t := by
  cases he with
  | answered r => exact h.of_unread
  | crc c => exact h.of_unread
  | busy => exact h.of_unread
  | buildRefused c _ _ hs => exact (h.setFrame hs (absurd rfl)).of_unread
  | built bytes _ _ hs hcount hlen hb =>
    have hp : bytes.length = s.reqPlen.toNat := ((Memory.readRun_eq_some_iff ..).1 hb).1
    exact (h.setFrame hs fun _ => frameOk_requestFrame h.config hcount (hp ▸ hlen)).of_unread
  | startRefused c => exact h.of_unread
  | started len _ _ _ hf hl => exact (h.beginTransaction hf hl).of_unread
  | illegal => exact h.of_unread
  | reqHdr v => exact h.of_unread
  | reqArg v => exact h.of_unread
  | timeout v => exact h.of_unread
  | stored off n v => exact (h.writePbuf ..).of_unread
  | txIgnored => exact h
  | txAdvanced _ hi => exact h.advanceTx hi
  | txLast hs => exact h.awaitResponse hs
  | rxIgnored => exact h
  | rxStored b hs hr hne =>
    have := h.rule43.d.2 hs
    exact h.setRx hs (by simpa using hr) (by simp; omega)
  | rxDropped b hs hr => exact h.markOverrun (Nat.lt_of_le_of_lt hr (h.rule43.d.2 hs))
  | completed b hs hr hlen hp =>
    exact h.endTransaction (by simp) (by simpa using hr) (by simp) fun _ => ⟨by simpa using hlen, hp⟩
  | mismatched b => exact h.endTransaction (by simp) (Nat.zero_le _) (fun _ => rfl) (by simp)
  | tickIgnored => exact h
  | ticked hs hw => exact h.setTicks (by simp [hs]) fun _ => hw
  | expired hs =>
    have hend : Inv (s.endTransaction .timedOut []) :=
      h.endTransaction (by simp) (Nat.zero_le _) (fun _ => rfl) (by simp)
    exact hend.setTicks (by simp) (by simp)
  | reset => exact h.afterReset

end

/-- Settles O5: a step drops an event the invariant does not speak of, or runs one of the effects on the rest. -/
theorem everyStepKeepsInvariant : Obligations.EveryStepKeepsInvariant := by
  intro s t h hstep
  rcases step_cases hstep with ⟨-, rfl⟩ | ⟨e, rest, -, ⟨-, rfl⟩ | ⟨i, -, he⟩⟩
  · exact h
  · exact h.of_unread
  · exact he.keeps_inv h.of_unread

/-- Settles O4: R44's values meet R43 under every admissible configuration; `State.reset` is the one of the defaults. -/
theorem invariantHoldsAfterReset : Obligations.InvariantHoldsAfterReset :=
  ⟨inv_poweredUp configOk_specDefault [], fun _ l h => inv_poweredUp h l⟩

/-- Settles O6: the invariant holds at reset and every step keeps it, so every reachable state meets R43. -/
theorem reachableStatesSatisfyRule43 : Obligations.ReachableStatesSatisfyRule43 := by
  intro cfg l k t hcfg hrun
  obtain ⟨a, b, c, d, e, f, g, h, i, j⟩ :=
    (runSteps_keeps (P := Inv) everyStepKeepsInvariant (inv_poweredUp hcfg l) hrun).rule43
  exact ⟨a, b, c, d, e, f, g, h, i, j⟩

end Sys2Proof.Machine
end

section
/-! Proofs of the family 10_state: what the registers read as (O17, O18, O20). -/

namespace Sys2Proof.Machine

/-! ### Fields in their places -/

/-- A bit of a placed field is the field's own bit, counted from the field's place. -/
@[simp] theorem getElem_place {w : Nat} (k : Nat) (x : BitVec w) {i : Nat} (hi : i < 32) :
    (place k x)[i] = (decide (k ≤ i) && x.getLsbD (i - k)) := by
  by_cases hk : k ≤ i <;> simp [place, hk]

/-- A field reads back at its own place. -/
@[simp] theorem extractLsb'_place_same {w k : Nat} (x : BitVec w) (h : k + w ≤ 32) : (place k x).extractLsb' k w = x := by
  ext i hi
  have hlt : k + i < 32 := by omega
  simp [hlt, BitVec.getLsbD_eq_getElem hi]

/-- A field is zero at bits that are not its own. -/
@[simp] theorem extractLsb'_place_apart {w k m n : Nat} (x : BitVec w) (h : m + n ≤ k ∨ k + w ≤ m) :
    (place k x).extractLsb' m n = 0#n := by
  ext i hi
  rcases Nat.lt_or_ge (m + i) 32 with hlt | hge
  · have hout : k ≤ m + i → x.getLsbD (m + i - k) = false := fun hk => BitVec.getLsbD_of_ge _ _ (by omega)
    simpa [hlt] using hout
  · simp [BitVec.getLsbD_of_ge _ _ hge]

/-- Neighbouring fields of a word, each in its place, are one field of it. -/
theorem place_or_place_extractLsb' (k m n : Nat) (v : Word) :
    place k (v.extractLsb' k m) ||| place (k + m) (v.extractLsb' (k + m) n) = place k (v.extractLsb' k (m + n)) := by
  ext i hi
  have hback : ∀ j, j ≤ i → j + (i - j) = i := by omega
  by_cases hk : k ≤ i
  · by_cases hm : k + m ≤ i
    · have h1 : ¬ i - k < m := by omega
      have h2 : i - (k + m) < n ↔ i - k < m + n := by omega
      simp [hk, hm, hback, h1, h2, hi]
    · have h1 : i - k < m := by omega
      have h2 : i - k < m + n := by omega
      simp [hk, hm, hback, h1, h2]
  · have hm : ¬ k + m ≤ i := by omega
    simp [hk, hm]

/-- The low bits of a word, kept in place, are the word masked. -/
theorem place_extractLsb'_eq_and (n : Nat) (v : Word) :
    place 0 (v.extractLsb' 0 n) = v &&& (BitVec.allOnes n).setWidth 32 := by
  ext i hi
  simp [hi, Bool.and_comm]

/-! ### Register accesses -/

/-- A word read of a register returns its word and no other (20_memory.md R51). -/
theorem readsWord_register_iff {r : Reg} {s : State} {w : Word} : ReadsWord s r.offset w ↔ w = s.readReg r := by
  rw [ReadsWord, exec_hostRead, execHostRead_register]
  constructor
  · intro h
    have hresp := congrArg State.busResp (Host.Outcome.next.inj h)
    exact (BusResponse.wordData.inj hresp).symm
  · rintro rfl; rfl

theorem readsWord_register (r : Reg) (s : State) : ReadsWord s r.offset (s.readReg r) :=
  readsWord_register_iff.2 rfl

/-- The five read-only registers (20_memory.md R55). -/
def Reg.readOnly : Reg → Bool
  | .status | .crc | .txInfo | .rxInfo | .ticks => true
  | .cmd | .reqHdr | .reqArg | .timeout => false

theorem writeIgnored_register {r : Reg} (h : r.readOnly = true) (s : State) (v : Word) :
    WriteIgnored s r.offset 4 v := by
  rw [WriteIgnored, exec_hostWrite, execHostWrite_register]
  cases r with
  | status | crc | txInfo | rxInfo | ticks => rfl
  | cmd | reqHdr | reqArg | timeout => cases h

/-- Settles O17: each field of the STATUS word is one placed field, and the others are 0 there. -/
theorem statusShowsEveryField : Obligations.StatusShowsEveryField := by
  intro s
  refine ⟨⟨_, readsWord_register .status s, ?_⟩, writeIgnored_register (r := .status) rfl s,
    readsWord_register .status State.reset⟩
  rw [State.readReg, State.statusWord, State.de]
  and_intros <;> simp [BitVec.extractLsb'_or, BitVec.getLsbD_of_ge] <;> rfl

/-- The frame length and position fit TXINFO's 9-bit fields (10_state.md R37, R43). -/
theorem Inv.txFields_fit {s : State} (h : Inv s) : s.txFrame.length < 512 ∧ s.txIdx < 512 := by
  have hcap := h.config.txCapacity
  have hidx := h.rule43.b
  rcases h.rule43.a with hnil | hlen
  · simp only [hnil, List.length_nil] at hidx ⊢
    omega
  · omega

/-- The received length fits RXINFO's 9-bit field (10_state.md R38, R43). -/
theorem Inv.rxFrame_fits {s : State} (h : Inv s) : s.rxFrame.length < 512 := by
  have hcap := h.config.rxCapacity
  have hlen := h.rule43.d
  omega

/-- Settles O18: the invariant keeps lengths and positions below the 512 a 9-bit field can show. -/
theorem readOnlyRegistersShowTheState : Obligations.ReadOnlyRegistersShowTheState := by
  refine ⟨fun s h => ⟨⟨_, readsWord_register .crc s, ?_⟩, ⟨_, readsWord_register .txInfo s, ?_⟩,
      ⟨_, readsWord_register .rxInfo s, ?_⟩, ⟨_, readsWord_register .ticks s, ?_⟩⟩,
    fun s v => ⟨writeIgnored_register (r := .crc) rfl s v, writeIgnored_register (r := .txInfo) rfl s v,
      writeIgnored_register (r := .rxInfo) rfl s v, writeIgnored_register (r := .ticks) rfl s v⟩,
    readsWord_register .crc _, readsWord_register .txInfo _, readsWord_register .rxInfo _,
    readsWord_register .ticks _⟩
  · simp [State.readReg]
  · obtain ⟨htx, hidx⟩ := h.txFields_fit
    simp [State.readReg, BitVec.extractLsb'_or, BitVec.getLsbD_of_ge, htx, hidx]
  · simp [State.readReg, BitVec.extractLsb'_or, h.rxFrame_fits, h.expectFits]
  · simp [State.readReg, BitVec.extractLsb'_or]

/-- Settles O20: the placed fields of a register are neighbours, so together they are the low bits of the word
written. -/
theorem operandRegistersReadBack : Obligations.OperandRegistersReadBack := by
  intro s t v
  refine ⟨fun h => ?_, fun h => ?_, fun h => ?_, readsWord_register .cmd s⟩
  · obtain rfl := Host.Outcome.next.inj ((execHostWrite_register .reqHdr v s).symm.trans h)
    refine readsWord_register_iff (r := .reqHdr).2 ?_
    calc v &&& 0x01FFFFFF#32
      _ = place 0 (v.extractLsb' 0 25) := (place_extractLsb'_eq_and 25 v).symm
      _ = place 0 (v.extractLsb' 0 8) ||| place 8 (v.extractLsb' 8 8) ||| place 16 (v.extractLsb' 16 9) := by
        rw [place_or_place_extractLsb' 0 8 8, place_or_place_extractLsb' 0 16 9]
  · obtain rfl := Host.Outcome.next.inj ((execHostWrite_register .reqArg v s).symm.trans h)
    refine readsWord_register_iff (r := .reqArg).2 ?_
    calc v
      _ = v &&& BitVec.allOnes 32 := BitVec.and_allOnes.symm
      _ = place 0 (v.extractLsb' 0 32) := (place_extractLsb'_eq_and 32 v).symm
      _ = place 0 (v.extractLsb' 0 16) ||| place 16 (v.extractLsb' 16 16) := by
        rw [place_or_place_extractLsb' 0 16 16]
  · obtain rfl := Host.Outcome.next.inj ((execHostWrite_register .timeout v s).symm.trans h)
    exact readsWord_register_iff (r := .timeout).2 (place_extractLsb'_eq_and 16 v).symm

end Sys2Proof.Machine
end

section
/-! Proofs of the family 10_state: who writes each field (O51, O52, O53) and what becomes of TICKS (O60). -/

namespace Sys2Proof.Machine

/-! ### The effects that write each field -/

section

variable {i : Instr} {s t : State}

theorem Effect.state_writers (h : Effect i s t) (hr : i ≠ .reset) (hne : t.state ≠ s.state) :
    (s.state = .idle ∧ issuedCommand i = some .start) ∨ (s.state = .transmitting ∧ i = .txDone) ∨
      (s.state = .awaitingResponse ∧ ((∃ b, i = .rxByte b) ∨ i = .tick)) := by
  cases h with
  | started _ hc _ hs => exact .inl ⟨hs, hc⟩
  | txLast hs => exact .inr (.inl ⟨hs, rfl⟩)
  | completed b hs | mismatched b hs => exact .inr (.inr ⟨hs, .inl ⟨b, rfl⟩⟩)
  | expired hs => exact .inr (.inr ⟨hs, .inr rfl⟩)
  | reset => exact absurd rfl hr
  | _ => exact absurd rfl hne

theorem Effect.crcAcc_writers (h : Effect i s t) (hr : i ≠ .reset) (hne : t.crcAcc ≠ s.crcAcc) :
    issuedCommand i = some .crcInit ∨ (∃ b, issuedCommand i = some (.crcFeed b)) ∨
      ∃ n, issuedCommand i = some (.crcPbuf n) := by
  cases h with
  | crc _ hc => exact hc
  | reset => exact absurd rfl hr
  | _ => exact absurd rfl hne

theorem Effect.reqHdr_writers (h : Effect i s t) (hr : i ≠ .reset)
    (hne : t.reqSlave ≠ s.reqSlave ∨ t.reqFc ≠ s.reqFc ∨ t.reqPlen ≠ s.reqPlen) : ∃ v, i = .hostWrite 0x00C 4 v := by
  cases h with
  | reqHdr v => exact ⟨v, rfl⟩
  | reset => exact absurd rfl hr
  | _ => simp at hne

theorem Effect.reqArg_writers (h : Effect i s t) (hr : i ≠ .reset)
    (hne : t.reqAddr ≠ s.reqAddr ∨ t.reqCount ≠ s.reqCount) : ∃ v, i = .hostWrite 0x010 4 v := by
  cases h with
  | reqArg v => exact ⟨v, rfl⟩
  | reset => exact absurd rfl hr
  | _ => simp at hne

theorem Effect.timeoutCfg_writers (h : Effect i s t) (hr : i ≠ .reset) (hne : t.timeoutCfg ≠ s.timeoutCfg) :
    ∃ v, i = .hostWrite 0x014 4 v := by
  cases h with
  | timeout v => exact ⟨v, rfl⟩
  | reset => exact absurd rfl hr
  | _ => exact absurd rfl hne

theorem Effect.pbuf_writers (h : Effect i s t) (hr : i ≠ .reset) (hne : t.pbuf ≠ s.pbuf) :
    ∃ off n v, i = .hostWrite off n v ∧ 0x100 ≤ off.toNat ∧ off.toNat < 0x200 := by
  cases h with
  | stored off n v hlo hhi => exact ⟨off, n, v, rfl, hlo, hhi⟩
  | reset => exact absurd rfl hr
  | _ => exact absurd rfl hne

theorem Effect.txFrame_writers (h : Effect i s t) (hr : i ≠ .reset) (hne : t.txFrame ≠ s.txFrame) :
    s.state = .idle ∧ issuedCommand i = some .build := by
  cases h with
  | buildRefused _ hc _ hs | built _ hc _ hs => exact ⟨hs, hc⟩
  | reset => exact absurd rfl hr
  | _ => exact absurd rfl hne

theorem Effect.txIdx_writers (h : Effect i s t) (hr : i ≠ .reset) (hne : t.txIdx ≠ s.txIdx) :
    (s.state = .idle ∧ (issuedCommand i = some .build ∨ issuedCommand i = some .start)) ∨
      (s.state = .transmitting ∧ i = .txDone) := by
  cases h with
  | buildRefused _ hc _ hs | built _ hc _ hs => exact .inl ⟨hs, .inl hc⟩
  | started _ hc _ hs => exact .inl ⟨hs, .inr hc⟩
  | txAdvanced hs | txLast hs => exact .inr ⟨hs, rfl⟩
  | reset => exact absurd rfl hr
  | _ => exact absurd rfl hne

theorem Effect.rxFrame_writers (h : Effect i s t) (hr : i ≠ .reset) (hne : t.rxFrame ≠ s.rxFrame) :
    (s.state = .idle ∧ issuedCommand i = some .start) ∨
      (s.state = .awaitingResponse ∧ ((∃ b, i = .rxByte b) ∨ i = .tick)) := by
  cases h with
  | started _ hc _ hs => exact .inl ⟨hs, hc⟩
  | rxStored b hs | completed b hs | mismatched b hs => exact .inr ⟨hs, .inl ⟨b, rfl⟩⟩
  | expired hs => exact .inr ⟨hs, .inr rfl⟩
  | reset => exact absurd rfl hr
  | _ => exact absurd rfl hne

theorem Effect.rxExpect_writers (h : Effect i s t) (hr : i ≠ .reset) (hne : t.rxExpect ≠ s.rxExpect) :
    s.state = .idle ∧ issuedCommand i = some .start := by
  cases h with
  | started _ hc _ hs => exact ⟨hs, hc⟩
  | reset => exact absurd rfl hr
  | _ => exact absurd rfl hne

theorem Effect.rxOverrun_writers (h : Effect i s t) (hr : i ≠ .reset) (hne : t.rxOverrun ≠ s.rxOverrun) :
    (s.state = .idle ∧ issuedCommand i = some .start) ∨ (s.state = .awaitingResponse ∧ ∃ b, i = .rxByte b) := by
  cases h with
  | started _ hc _ hs => exact .inl ⟨hs, hc⟩
  | rxDropped b hs => exact .inr ⟨hs, b, rfl⟩
  | reset => exact absurd rfl hr
  | _ => exact absurd rfl hne

theorem Effect.ticks_writers (h : Effect i s t) (hr : i ≠ .reset) (hne : t.ticks ≠ s.ticks) :
    (s.state = .idle ∧ issuedCommand i = some .start) ∨ (s.state = .transmitting ∧ i = .txDone) ∨
      (s.state = .awaitingResponse ∧ i = .tick) := by
  cases h with
  | started _ hc _ hs => exact .inl ⟨hs, hc⟩
  | txLast hs => exact .inr (.inl ⟨hs, rfl⟩)
  | ticked hs | expired hs => exact .inr (.inr ⟨hs, rfl⟩)
  | reset => exact absurd rfl hr
  | _ => exact absurd rfl hne

theorem Effect.toLatched_writers (h : Effect i s t) (hr : i ≠ .reset) (hne : t.toLatched ≠ s.toLatched) :
    s.state = .transmitting ∧ i = .txDone := by
  cases h with
  | txLast hs => exact ⟨hs, rfl⟩
  | reset => exact absurd rfl hr
  | _ => exact absurd rfl hne

theorem Effect.outcome_writers (h : Effect i s t) (hr : i ≠ .reset)
    (hne : t.done ≠ s.done ∨ t.txnResult ≠ s.txnResult) :
    (s.state = .idle ∧ issuedCommand i = some .start) ∨
      (s.state = .awaitingResponse ∧ ((∃ b, i = .rxByte b) ∨ i = .tick)) := by
  cases h with
  | started _ hc _ hs => exact .inl ⟨hs, hc⟩
  | completed b hs | mismatched b hs => exact .inr ⟨hs, .inl ⟨b, rfl⟩⟩
  | expired hs => exact .inr ⟨hs, .inr rfl⟩
  | reset => exact absurd rfl hr
  | _ => simp at hne

theorem Effect.cmdStatus_writers (h : Effect i s t) (hr : i ≠ .reset) (hne : t.cmdStatus ≠ s.cmdStatus) :
    writesCmd i = true := by
  cases h with
  | crc _ _ hw | busy _ hw | buildRefused _ _ hw | built _ _ hw | startRefused _ _ hw | started _ _ hw
  | illegal _ hw => exact hw
  | reset => exact absurd rfl hr
  | _ => exact absurd rfl hne

/-- A write to CMD is a command of the table or the host's write. -/
theorem isCommand_or_hostWrite_of_writesCmd (hw : writesCmd i = true) :
    i.isCommand = true ∨ ∃ off n v, i = .hostWrite off n v := by
  cases i with
  | hostWrite off n v => exact .inr ⟨off, n, v, rfl⟩
  | _ => exact .inl hw

theorem Effect.busResp_writers (h : Effect i s t) (hne : t.busResp ≠ s.busResp) :
    i.isCommand = true ∨ (∃ off n, i = .hostRead off n) ∨ ∃ off n v, i = .hostWrite off n v := by
  cases h with
  | answered _ _ _ hi => exact .inr hi
  | crc _ _ hw | busy _ hw | buildRefused _ _ hw | built _ _ hw | startRefused _ _ hw | started _ _ hw
  | illegal _ hw => exact (isCommand_or_hostWrite_of_writesCmd hw).imp_right .inr
  | reqHdr | reqArg | timeout | stored => exact .inr (.inr ⟨_, _, _, rfl⟩)
  | _ => exact absurd rfl hne

/-- Outside AwaitingResponse TICKS is left, unless a START sets ELAPSED to 0 (10_state.md R39; 42_transaction.md
R100). -/
theorem Effect.ticks_outside_awaiting (h : Effect i s t) (hr : i ≠ .reset) (hs : s.state ≠ .awaitingResponse)
    (ht : t.state ≠ .awaitingResponse) :
    t.toLatched = s.toLatched ∧
      ((t.state = s.state ∧ t.ticks = s.ticks) ∨ (t.state = .transmitting ∧ t.ticks = 0)) := by
  cases h with
  | started => exact ⟨rfl, .inr ⟨rfl, rfl⟩⟩
  | txLast => exact absurd rfl ht
  | completed _ ha | mismatched _ ha | ticked ha | expired ha => exact absurd ha hs
  | reset => exact absurd rfl hr
  | _ => exact ⟨rfl, .inl ⟨rfl, rfl⟩⟩

end

/-- Settles O53: the writers of each field, one lemma a field. -/
theorem eachFieldHasItsWriters : Obligations.EachFieldHasItsWriters := by
  intro i s t h
  have he := exec_effect h
  obtain ⟨hcfg, hinputs⟩ := he.cfg_inputs
  exact ⟨hcfg, hinputs, he.busResp_writers, fun hr => ⟨he.state_writers hr, he.crcAcc_writers hr,
    he.reqHdr_writers hr, he.reqArg_writers hr, he.timeoutCfg_writers hr, he.pbuf_writers hr, he.txFrame_writers hr,
    he.txIdx_writers hr, he.rxFrame_writers hr, he.rxExpect_writers hr, he.rxOverrun_writers hr, he.ticks_writers hr,
    he.toLatched_writers hr, he.outcome_writers hr, he.cmdStatus_writers hr⟩⟩

/-- Settles O51: the three effects that end a transaction set the outcome, START and Reset clear it. -/
theorem outcomeIsKeptUntilTheNextStart : Obligations.OutcomeIsKeptUntilTheNextStart := by
  intro i s t hInv h
  have hpending (hs : s.state = .awaitingResponse) : s.done = false := (hInv.rule43.f hs).2.1
  cases exec_effect h with
  | started _ hc _ hs => exact .inr (.inr ⟨rfl, rfl, .inr ⟨hc, hs, rfl⟩⟩)
  | completed _ hs | mismatched _ hs | expired hs => exact .inr (.inl ⟨hs, rfl, hpending hs, rfl, by simp⟩)
  | reset => exact .inr (.inr ⟨rfl, rfl, .inl rfl⟩)
  | _ => exact .inl ⟨rfl, rfl⟩

/-! ### The command status -/

/-- A command word goes on to `State.report` on every path, which overwrites the command status unread (10_state.md
R29). -/
theorem execCommandWord_ignores_cmdStatus (v : Word) (s : State) (c : CmdStatus) :
    execCommandWord v { s with cmdStatus := c } = execCommandWord v s := rfl

/-- So does every instruction that is a write to CMD. -/
theorem exec_ignores_cmdStatus {i : Instr} (hw : writesCmd i = true) (s : State) (c : CmdStatus) :
    exec i { s with cmdStatus := c } = exec i s := by
  cases i with
  | hostWrite off n v =>
    obtain ⟨rfl, rfl⟩ : off = 0 ∧ n = 4 := by simpa [writesCmd] using hw
    have hcmd (u : State) : exec (.hostWrite 0 4 v) u = execCommandWord v u := execHostWrite_register .cmd v u
    rw [hcmd, hcmd, execCommandWord_ignores_cmdStatus]
  | hostRead | txDone | rxByte | tick | reset => cases hw
  | _ => rfl

/-- Settles O52: a write to CMD overwrites the status, and the status has no other writer but Reset. -/
theorem onlyCommandsWriteCmdStatus : Obligations.OnlyCommandsWriteCmdStatus := by
  refine ⟨fun i s c hw => exec_ignores_cmdStatus hw s c, fun i s t hw hr h => ?_⟩
  by_contra hne
  have htrue := (exec_effect h).cmdStatus_writers hr hne
  rw [hw] at htrue
  cases htrue

/-! ### TICKS after a transaction -/

/-- What an Idle state `s` leaves of TICKS in a later state `u`, up to the next wait for a response (10_state.md R39): the
window in any case, and the count until a START sets it to 0. -/
structure TicksKept (s u : State) : Prop where
  latched : u.toLatched = s.toLatched
  elapsed : (u.state = .idle ∧ u.ticks = s.ticks) ∨ (u.state = .transmitting ∧ u.ticks = 0)

theorem TicksKept.not_awaiting {s u : State} (h : TicksKept s u) : u.state ≠ .awaitingResponse := by
  rcases h.elapsed with ⟨hu, -⟩ | ⟨hu, -⟩ <;> simp [hu]

theorem TicksKept.effect {i : Instr} {s u v : State} (h : TicksKept s u) (he : Effect i u v) (hr : i ≠ .reset)
    (hv : v.state ≠ .awaitingResponse) : TicksKept s v := by
  obtain ⟨hlatched, ⟨hstate, hticks⟩ | hstarted⟩ := he.ticks_outside_awaiting hr h.not_awaiting hv
  · exact ⟨hlatched.trans h.latched, by rw [hstate, hticks]; exact h.elapsed⟩
  · exact ⟨hlatched.trans h.latched, .inr hstarted⟩

theorem TicksKept.step {s u v : State} {e : Input} {l : List Input} (h : TicksKept s u) (hin : u.inputs = e :: l)
    (hne : e ≠ .reset) (hstep : step u = .next v) (hv : v.state ≠ .awaitingResponse) : TicksKept s v := by
  rcases step_cases hstep with ⟨hnil, -⟩ | ⟨e', rest, he', hcase⟩
  · rw [hin] at hnil; cases hnil
  · obtain ⟨rfl, rfl⟩ := List.cons.inj (hin.symm.trans he')
    have hrest : TicksKept s (u.withInputs l) := ⟨h.latched, h.elapsed⟩
    rcases hcase with ⟨-, rfl⟩ | ⟨i, hf, he⟩
    · exact hrest
    · exact hrest.effect he (fun hi => hne (fetchInput_eq_reset.1 (hi ▸ hf))) hv

/-- Along a run without Reset that never waits for a response TICKS is kept. -/
theorem TicksKept.run {s u t : State} {l rest : List Input} (h : TicksKept s u) (hin : u.inputs = l ++ rest)
    (hr : Input.reset ∉ l) (hrun : runSteps l.length u = .next t)
    (hwait : ∀ (j : Nat) (v : State), j ≤ l.length → runSteps j u = .next v → v.state ≠ .awaitingResponse) :
    TicksKept s t := by
  induction l generalizing u with
  | nil => cases hrun; exact h
  | cons e l ih =>
    obtain ⟨v, huv, hvt⟩ := runSteps_succ_eq_next.1 hrun
    have hfirst (j : Nat) : runSteps (j + 1) u = runSteps j v := runSteps_succ_of_step j huv
    have hv : TicksKept s v := h.step hin (List.ne_of_not_mem_cons hr).symm huv (hwait 1 v (by simp) (hfirst 0))
    exact ih hv (step_inputs hin huv).1 (List.not_mem_of_not_mem_cons hr) hvt fun j w hj hw =>
      hwait (j + 1) w (Nat.succ_le_succ hj) ((hfirst j).trans hw)

/-- Settles O60: the run keeps TICKS in the sense of `TicksKept`, and TICKS reads its two fields. -/
theorem ticksViewIsKeptAfterTheTransaction : Obligations.TicksViewIsKeptAfterTheTransaction := by
  intro s t l rest hidle hin hr hrun hwait
  obtain ⟨hlatched, helapsed⟩ := TicksKept.run ⟨rfl, .inl ⟨hidle, rfl⟩⟩ hin hr hrun hwait
  refine ⟨hlatched, fun ht => ?_, fun ht => ?_⟩
  · have hticks : t.ticks = s.ticks := by simpa [ht] using helapsed
    have hword : t.readReg .ticks = s.readReg .ticks := by simp only [State.readReg, hlatched, hticks]
    have hreads (u : State) (w : Word) : ReadsWord u 0x020 w ↔ w = u.readReg .ticks :=
      readsWord_register_iff (r := .ticks)
    exact ⟨hticks, fun w => by rw [hreads, hreads, hword]; exact id⟩
  · simpa [ht] using helapsed

end Sys2Proof.Machine
end

section
/-! Proofs of the family 20_memory: which accesses are the block's and which it accepts (O15, O16), and what a host
write does (O19, O23, O24). -/

namespace Sys2Proof.Machine

/-! ### Accesses and the window -/

/-- A legal word written to CMD does what its command does (30_encoding.md R70). -/
theorem execCommandWord_of_decode {v : Word} {i : Instr} (h : decodeCommand v = .ok i) (s : State) :
    execCommandWord v s = exec i s := by
  have hcmd := isCommand_of_decode h
  rw [execCommandWord, h]
  cases i with
  | crcInit | crcFeed | crcPbuf | build | start => rfl
  | hostRead | hostWrite | txDone | rxByte | tick | reset => cases hcmd

/-- A host write does the same whether it is fetched as the command it issues or as itself (20_memory.md R56). -/
theorem exec_fetchWrite (off : BitVec 10) (n : Nat) (v : Word) (s : State) :
    exec (fetchWrite off n v) s = exec (.hostWrite off n v) s := by
  rcases fetchWrite_cases off n v with ⟨rfl, rfl, hcmd⟩ | hself
  · calc exec (fetchWrite 0 4 v) s
      _ = execCommandWord v s := (execCommandWord_of_decode (commandOf_eq_some_iff.1 hcmd) s).symm
      _ = exec (.hostWrite 0 4 v) s := (execHostWrite_register .cmd v s).symm
  · rw [hself]

/-- An event that is not the block's is taken off the list, and nothing else happens (20_memory.md R45). -/
theorem step_of_fetch_none {s : State} {e : Input} {rest : List Input} (hs : s.inputs = e :: rest)
    (hf : fetchInput s.cfg e = none) : step s = .next (s.withInputs rest) := by
  simp [step, hs, hf]

/-- Settles O15: outside the window nothing is fetched; inside it the access itself, but for a command word written to
CMD, which does what that write does. -/
theorem blockDecodesItsWindowOnly : Obligations.BlockDecodesItsWindowOnly := by
  intro s rest addr n v
  refine ⟨fun hout => ?_, ?_⟩
  · have hnone : windowOffset s.cfg addr = none := windowOffset_of_lt hout
    exact ⟨fun hs => step_of_fetch_none hs (by simp [fetchInput, hnone]),
      fun hs => step_of_fetch_none hs (by simp [fetchInput, hnone])⟩
  · rintro off rfl
    refine ⟨fun hs => step_of_fetch hs (by simp [fetchInput]), fun hs => ?_⟩
    calc step s
      _ = exec (fetchWrite off n v) (s.withInputs rest) := step_of_fetch hs (by simp [fetchInput])
      _ = exec (.hostWrite off n v) { s with inputs := rest } := exec_fetchWrite off n v _

/-! ### Accepted and refused accesses -/

/-- An aligned offset below the hole is a register's (10_state.md R30). -/
theorem exists_eq_register_offset {off : BitVec 10} (h : off.toNat < 0x024) (h4 : off.toNat % 4 = 0) :
    ∃ r : Reg, off = r.offset := by
  obtain ⟨r, hr⟩ := locate_register h
  exact ⟨r, eq_offset_of_locate hr h4⟩

/-- An accepted access is a word access to a register or an access to a buffer (20_memory.md R46 to R49). -/
theorem accessAccepted_cases {off : BitVec 10} {n : Nat} (h : accessAccepted off n = true) :
    (∃ r : Reg, off = r.offset ∧ n = 4) ∨ 0x100 ≤ off.toNat := by
  rcases (accessAccepted_iff off n).1 h with ⟨-, hbuf⟩ | ⟨hn, h4, hreg | hbuf⟩
  · exact .inr hbuf
  · obtain ⟨r, hr⟩ := exists_eq_register_offset hreg h4
    exact .inl ⟨r, hr, hn⟩
  · exact .inr hbuf

/-- A buffer read is never answered BusError (20_memory.md R52, R53). -/
theorem bufferRead_ne_busError (s : State) (off : BitVec 10) (n : Nat) : s.bufferRead off n ≠ some .busError := by
  unfold State.bufferRead
  split <;> simp

/-- A buffer read goes on with its answer, where every byte of it is written. -/
theorem readBuffer_eq_next_iff {off : BitVec 10} {n : Nat} {s t : State} :
    readBuffer off n s = .next t ↔ ∃ r, s.bufferRead off n = some r ∧ t = s.respond r := by
  unfold readBuffer
  cases s.bufferRead off n <;> simp [eq_comm]

/-- A buffer read faults exactly where a byte of it is unwritten. -/
theorem readBuffer_eq_fault_iff {off : BitVec 10} {n : Nat} {s : State} :
    readBuffer off n s = .fault .uninitPayload ↔ s.bufferRead off n = none := by
  unfold readBuffer
  cases s.bufferRead off n <;> simp

/-- An accepted read that goes on is answered with data (20_memory.md R51 to R53). -/
theorem execHostRead_accepted_ne_busError {off : BitVec 10} {n : Nat} {s t : State} (ha : accessAccepted off n = true)
    (h : execHostRead off n s = .next t) : t.busResp ≠ .busError := by
  rcases accessAccepted_cases ha with ⟨r, rfl, rfl⟩ | hbuf
  · obtain rfl := Host.Outcome.next.inj ((execHostRead_register r s).symm.trans h)
    simp
  · rw [execHostRead_buffer ha hbuf] at h
    obtain ⟨r, hr, rfl⟩ := readBuffer_eq_next_iff.1 h
    rintro rfl
    exact bufferRead_ne_busError s off n hr

/-- Every write to CMD completes, whatever its status (30_encoding.md R69). -/
theorem Effect.written_of_writesCmd {i : Instr} {s t : State} (h : Effect i s t) (hw : writesCmd i = true) :
    t.busResp = .written := by
  cases h with
  | answered _ _ hno => rw [hw] at hno; cases hno
  | crc | busy | buildRefused | built | startRefused | started | illegal => rfl
  | reqHdr | reqArg | timeout | stored => rfl
  | _ => cases hw

/-- An accepted write that goes on completes (20_memory.md R54 to R57). -/
theorem execHostWrite_accepted_written {off : BitVec 10} {n : Nat} {v : Word} {s t : State}
    (ha : accessAccepted off n = true) (h : execHostWrite off n v s = .next t) : t.busResp = .written := by
  rcases accessAccepted_cases ha with ⟨r, rfl, rfl⟩ | hbuf
  · cases r with
    | cmd => exact (execHostWrite_effect h).written_of_writesCmd rfl
    | _ => cases h; rfl
  · rcases Nat.lt_or_ge off.toNat 0x200 with hlt | hge
    · obtain rfl := Host.Outcome.next.inj ((execHostWrite_pbuf ha hbuf hlt v s).symm.trans h)
      rfl
    · obtain rfl := Host.Outcome.next.inj ((execHostWrite_frameWindow ha hge v s).symm.trans h)
      rfl

/-- Settles O16: the two sets are those `accessAccepted` refuses and accepts. -/
theorem refusedAccessesAreBusErrors : Obligations.RefusedAccessesAreBusErrors := by
  intro s off n v
  refine ⟨fun h => ?_, fun h => ?_⟩
  · have href : accessAccepted off n = false := by
      rw [← Bool.not_eq_true, accessAccepted_iff]
      omega
    exact ⟨execHostRead_refused href s, execHostWrite_refused href v s⟩
  · have hacc : accessAccepted off n = true := (accessAccepted_iff off n).2 (by omega)
    exact ⟨fun t ht => execHostRead_accepted_ne_busError hacc ht,
      fun t ht => by rw [execHostWrite_accepted_written hacc ht]; simp⟩

/-! ### What a host write does -/

/-- Settles O19: each is the register's own write, in every engine state. -/
theorem operandRegisterWrites : Obligations.OperandRegisterWrites := fun s v =>
  ⟨execHostWrite_register .reqHdr v s, execHostWrite_register .reqArg v s, execHostWrite_register .timeout v s⟩

/-- The offsets R55 lists are those of the read-only registers. -/
theorem exists_readOnly_of_mem {off : BitVec 10} (h : off.toNat ∈ [0x004, 0x008, 0x018, 0x01C, 0x020]) :
    ∃ r : Reg, r.readOnly = true ∧ off = r.offset := by
  simp only [List.mem_cons, List.not_mem_nil, or_false] at h
  rcases h with h | h | h | h | h
  · exact ⟨.status, rfl, BitVec.eq_of_toNat_eq h⟩
  · exact ⟨.crc, rfl, BitVec.eq_of_toNat_eq h⟩
  · exact ⟨.txInfo, rfl, BitVec.eq_of_toNat_eq h⟩
  · exact ⟨.rxInfo, rfl, BitVec.eq_of_toNat_eq h⟩
  · exact ⟨.ticks, rfl, BitVec.eq_of_toNat_eq h⟩

/-- Settles O23: the read-only registers and the two frame windows ignore a write. -/
theorem readOnlyLocationsIgnoreWrites : Obligations.ReadOnlyLocationsIgnoreWrites := by
  rintro s off n v (⟨rfl, hmem⟩ | ⟨hlo, hn⟩)
  · obtain ⟨r, hr, rfl⟩ := exists_readOnly_of_mem hmem
    exact writeIgnored_register hr s v
  · exact execHostWrite_frameWindow ((accessAccepted_iff off n).2 (by omega)) hlo v s

/-- Settles O24: the case of O58 in which the buffer fills the window, so that no byte of the write is past its end. -/
theorem pbufWritesStoreTheirBytes : Obligations.PbufWritesStoreTheirBytes := by
  intro s off v hcap hlo hhi
  obtain ⟨⟨p, hp, hread⟩, hword⟩ := pbufWritesStayInsideTheBuffer s off v hlo hhi
  refine ⟨⟨p, hp, fun a => (hread a).trans (if_congr (by omega) rfl rfl)⟩, fun h4 => ?_⟩
  obtain ⟨q, hq, hstored, hkept⟩ := hword h4
  refine ⟨q, hq, fun a => ?_⟩
  have hbyte (k : Nat) (hk : k < 4) : q.read (off.toNat - 0x100 + k) = some (v.extractLsb' (8 * k) 8) :=
    hstored k hk (by omega)
  split_ifs with h0 h1 h2 h3
  · simpa [h0] using hbyte 0 (by omega)
  · simpa [h1] using hbyte 1 (by omega)
  · simpa [h2] using hbyte 2 (by omega)
  · simpa [h3] using hbyte 3 (by omega)
  · exact hkept a (by omega)

end Sys2Proof.Machine
end

section
/-! Proofs of the family 20_memory: what a host read returns and leaves unchanged (O21, O22, O25), and which fields the
engine does not read (O55). -/

namespace Sys2Proof.Machine

/-! ### What a buffer read returns -/

section

variable {s : State} {off : BitVec 10}

/-- The byte a TXBUF offset reads as (20_memory.md R52). -/
theorem bufferByte_txbuf (h : 0x200 ≤ off.toNat) (h' : off.toNat < 0x300) (s : State) :
    s.bufferByte off = some ((s.txFrame[off.toNat - 0x200]?).getD 0) := by
  have hidx : off.toNat % 0x100 = off.toNat - 0x200 := by omega
  simp [State.bufferByte, locate_txbuf h h', windowByte, hidx]

/-- The byte an RXBUF offset reads as (20_memory.md R52). -/
theorem bufferByte_rxbuf (h : 0x300 ≤ off.toNat) (s : State) :
    s.bufferByte off = some ((s.rxFrame[off.toNat - 0x300]?).getD 0) := by
  have hidx : off.toNat % 0x100 = off.toNat - 0x300 := by omega
  simp [State.bufferByte, locate_rxbuf h, windowByte, hidx]

theorem exec_hostRead_byte (h : 0x100 ≤ off.toNat) (s : State) : exec (.hostRead off 1) s = readBuffer off 1 s :=
  execHostRead_buffer ((accessAccepted_iff off 1).2 (.inl ⟨rfl, h⟩)) h s

theorem exec_hostRead_word (h : 0x100 ≤ off.toNat) (h4 : off.toNat % 4 = 0) (s : State) :
    exec (.hostRead off 4) s = readBuffer off 4 s :=
  execHostRead_buffer ((accessAccepted_iff off 4).2 (.inr ⟨rfl, h4, .inr h⟩)) h s

/-- A byte read of a buffer returns the byte of its offset (20_memory.md R52). -/
theorem readsByte_iff (h : 0x100 ≤ off.toNat) {b : Byte} : ReadsByte s off b ↔ s.bufferByte off = some b := by
  rw [ReadsByte, exec_hostRead_byte h, readBuffer_eq_next_iff]
  simp [State.bufferRead, State.respond]

/-- A byte read of a buffer faults where its byte is unwritten (20_memory.md R52). -/
theorem exec_hostRead_byte_fault_iff (h : 0x100 ≤ off.toNat) :
    exec (.hostRead off 1) s = .fault .uninitPayload ↔ s.bufferByte off = none := by
  rw [exec_hostRead_byte h, readBuffer_eq_fault_iff]
  simp [State.bufferRead]

/-- The four offsets of an aligned word do not leave its 4-byte block. -/
theorem toNat_add_of_aligned (h4 : off.toNat % 4 = 0) (k : Fin 4) :
    (off + BitVec.ofNat 10 k).toNat = off.toNat + k := by
  have hlt := off.isLt
  have hk := k.isLt
  rw [BitVec.toNat_add, BitVec.toNat_ofNat]
  omega

/-- Four written bytes are the word, little-endian (20_memory.md R53). -/
theorem bufferWord_of_bytes {b0 b1 b2 b3 : Byte} (h0 : s.bufferByte off = some b0)
    (h1 : s.bufferByte (off + 1) = some b1) (h2 : s.bufferByte (off + 2) = some b2)
    (h3 : s.bufferByte (off + 3) = some b3) : s.bufferWord off = some (le32 b0 b1 b2 b3) := by
  rw [State.bufferWord, h0, h1, h2, h3]

/-- A word with an unwritten byte has no value (20_memory.md R53). -/
theorem bufferWord_eq_none {k : Fin 4} (h : s.bufferByte (off + BitVec.ofNat 10 k) = none) :
    s.bufferWord off = none := by
  unfold State.bufferWord
  split
  · fin_cases k <;> simp_all
  · rfl

end

/-- Settles O21: the byte of each of the three buffers. -/
theorem bufferByteReads : Obligations.BufferByteReads := by
  intro s off
  refine ⟨fun ⟨hlo, hhi⟩ => ⟨fun b hb => ?_, fun hnone => ?_⟩, fun ⟨hlo, hhi⟩ => ?_, fun hlo => ?_⟩
  · exact (readsByte_iff hlo).2 ((bufferByte_pbuf hlo hhi s).trans hb)
  · exact (exec_hostRead_byte_fault_iff hlo).2 ((bufferByte_pbuf hlo hhi s).trans hnone)
  · exact (readsByte_iff (by omega)).2 (bufferByte_txbuf hlo hhi s)
  · exact (readsByte_iff (by omega)).2 (bufferByte_rxbuf hlo s)

/-- Settles O22: the word is composed of the four bytes, and of none where one of them is unwritten. -/
theorem bufferWordReads : Obligations.BufferWordReads := by
  intro s off hlo h4
  have hbuf (k : Fin 4) : 0x100 ≤ (off + BitVec.ofNat 10 k).toNat := by
    rw [toNat_add_of_aligned h4]
    omega
  refine ⟨fun b0 b1 b2 b3 h0 h1 h2 h3 => ?_, fun ⟨k, hk⟩ => ?_⟩
  · have hword : s.bufferWord off = some (le32 b0 b1 b2 b3) :=
      bufferWord_of_bytes ((readsByte_iff hlo).1 h0) ((readsByte_iff (hbuf 1)).1 h1) ((readsByte_iff (hbuf 2)).1 h2)
        ((readsByte_iff (hbuf 3)).1 h3)
    rw [ReadsWord, exec_hostRead_word hlo h4, readBuffer_eq_next_iff]
    exact ⟨.wordData (le32 b0 b1 b2 b3), by simp [State.bufferRead, hword], by simp [le32, place, State.respond]⟩
  · have hnone := bufferWord_eq_none ((exec_hostRead_byte_fault_iff (hbuf k)).1 hk)
    rw [exec_hostRead_word hlo h4, readBuffer_eq_fault_iff]
    simp [State.bufferRead, hnone]

/-! ### What reads leave unchanged -/

/-- Two states that differ at most in the model's own fields: the agents' pending events and the last bus answer
(notes/assumptions/2.md, notes/assumptions/6.md). -/
def SameBlock (s t : State) : Prop := ∃ l r, t = { s with inputs := l, busResp := r }

theorem SameBlock.symm {s t : State} (h : SameBlock s t) : SameBlock t s := by
  obtain ⟨l, r, rfl⟩ := h
  exact ⟨s.inputs, s.busResp, rfl⟩

theorem SameBlock.trans {s t u : State} (h : SameBlock s t) (h' : SameBlock t u) : SameBlock s u := by
  obtain ⟨l₁, r₁, rfl⟩ := h
  obtain ⟨l₂, r₂, rfl⟩ := h'
  exact ⟨l₂, r₂, rfl⟩

/-- A buffer read does not look at the model's own fields. -/
theorem readBuffer_ignores_agents (off : BitVec 10) (n : Nat) (s : State) (l : List Input) (r : BusResponse) :
    readBuffer off n { s with inputs := l, busResp := r } = mapNext (·.withInputs l) (readBuffer off n s) := by
  have hbyte : State.bufferRead { s with inputs := l, busResp := r } off n = s.bufferRead off n := rfl
  rw [readBuffer, readBuffer, hbyte]
  cases s.bufferRead off n <;> rfl

/-- A host read does not look at the model's own fields. -/
theorem exec_hostRead_ignores_agents (off : BitVec 10) (n : Nat) (s : State) (l : List Input) (r : BusResponse) :
    exec (.hostRead off n) { s with inputs := l, busResp := r } =
      mapNext (·.withInputs l) (exec (.hostRead off n) s) := by
  rw [exec_hostRead, exec_hostRead, execHostRead, execHostRead]
  split
  · cases locate off with
    | register | reserved => rfl
    | pbuf | txbuf | rxbuf => exact readBuffer_ignores_agents off n s l r
  · rfl

/-- States of the same block answer a host read alike (20_memory.md R51, R52). -/
theorem SameBlock.answer_iff {s t : State} (h : SameBlock s t) (off : BitVec 10) (n : Nat) (a : BusResponse) :
    exec (.hostRead off n) s = .next { s with busResp := a } ↔
      exec (.hostRead off n) t = .next { t with busResp := a } := by
  have transfer {s t : State} (h : SameBlock s t) (hs : exec (.hostRead off n) s = .next { s with busResp := a }) :
      exec (.hostRead off n) t = .next { t with busResp := a } := by
    obtain ⟨l, r, rfl⟩ := h
    rw [exec_hostRead_ignores_agents, hs]
    rfl
  exact ⟨transfer h, transfer h.symm⟩

/-- A step that takes a host read leaves the block (20_memory.md R45, R51, R52). -/
theorem sameBlock_of_step_busRead {s t : State} {addr n : Nat} {rest : List Input}
    (hs : s.inputs = .busRead addr n :: rest) (h : step s = .next t) : SameBlock s t := by
  cases hoff : windowOffset s.cfg addr with
  | none =>
    rw [step_of_fetch_none hs (by simp [fetchInput, hoff])] at h
    cases h
    exact ⟨rest, s.busResp, rfl⟩
  | some off =>
    rw [step_of_fetch (i := .hostRead off n) hs (by simp [fetchInput, hoff])] at h
    obtain ⟨r, rfl⟩ := execHostRead_next h
    exact ⟨rest, r, rfl⟩

/-- A run of host reads leaves the block. -/
theorem sameBlock_of_run_busRead {s t : State} {l rest : List Input} (hs : s.inputs = l ++ rest)
    (hl : ∀ e ∈ l, ∃ addr n, e = .busRead addr n) (h : runSteps l.length s = .next t) : SameBlock s t := by
  induction l generalizing s with
  | nil => cases h; exact ⟨_, _, rfl⟩
  | cons e l ih =>
    obtain ⟨⟨addr, n, rfl⟩, htail⟩ := List.forall_mem_cons.1 hl
    obtain ⟨u, hsu, hut⟩ := runSteps_succ_eq_next.1 h
    exact (sameBlock_of_step_busRead hs hsu).trans (ih (step_inputs hs hsu).1 htail hut)

/-- A run takes as many pending events as it has steps. -/
theorem inputs_of_run {s t : State} {l rest : List Input} (hs : s.inputs = l ++ rest)
    (h : runSteps l.length s = .next t) : t.inputs = rest :=
  (runSteps_events (P := fun _ _ => True) (fun _ _ _ _ _ _ _ => trivial) hs trivial h).2

/-- Settles O25: a run of reads ends in the same block, and that reads alike. -/
theorem readsLeaveEveryReadUnchanged : Obligations.ReadsLeaveEveryReadUnchanged := by
  intro s t l rest hs hl h
  have hsame : SameBlock s t := sameBlock_of_run_busRead hs hl h
  refine ⟨?_, fun off w => hsame.answer_iff off 4 (.wordData w), fun off b => hsame.answer_iff off 1 (.byteData b)⟩
  obtain rfl : t.inputs = rest := inputs_of_run hs h
  obtain ⟨l', r, rfl⟩ := hsame
  rfl

/-! ### What the engine does not read -/

/-- The same state with other request operands and another payload staged. -/
def State.stage (s : State) (slave fc : Byte) (plen : BitVec 9) (addr count : Half) (p : Memory) : State :=
  { s with reqSlave := slave, reqFc := fc, reqPlen := plen, reqAddr := addr, reqCount := count, pbuf := p }

/-- `mapNext` goes into the branches of a test. -/
theorem mapNext_ite (f : State → State) (c : Prop) [Decidable c] (x y : Result) :
    mapNext f (if c then x else y) = if c then mapNext f x else mapNext f y :=
  apply_ite ..

section

variable (s : State) (slave fc : Byte) (plen : BitVec 9) (addr count : Half) (p : Memory)

theorem execStart_stage : execStart (s.stage slave fc plen addr count p) =
    mapNext (·.stage slave fc plen addr count p) (execStart s) := by
  rw [execStart, execStart, mapNext_ite, mapNext_ite]
  refine if_congr Iff.rfl rfl (if_congr Iff.rfl rfl ?_)
  dsimp only [State.stage]
  cases respLen s.cfg (fcOf s.txFrame) (countOf s.txFrame) <;> rfl

theorem execTxDone_stage : execTxDone (s.stage slave fc plen addr count p) =
    mapNext (·.stage slave fc plen addr count p) (execTxDone s) := by
  rw [execTxDone, execTxDone, mapNext_ite, mapNext_ite]
  rfl

theorem complete_stage (rx : List Byte) : (s.stage slave fc plen addr count p).complete rx =
    (s.complete rx).stage slave fc plen addr count p := by
  rw [State.complete, State.complete]
  cases parse rx <;> rfl

theorem execRxByte_stage (b : Byte) : execRxByte b (s.stage slave fc plen addr count p) =
    mapNext (·.stage slave fc plen addr count p) (execRxByte b s) := by
  rw [execRxByte, execRxByte, mapNext_ite, mapNext_ite, mapNext_ite, complete_stage]
  rfl

theorem execTick_stage : execTick (s.stage slave fc plen addr count p) =
    mapNext (·.stage slave fc plen addr count p) (execTick s) := by
  rw [execTick, execTick, mapNext_ite, mapNext_ite]
  rfl

end

/-- Settles O55: START and the three events commute with staging other operands. -/
theorem stagedOperandsDoNotReachTheEngine : Obligations.StagedOperandsDoNotReachTheEngine := by
  rintro i s slave fc plen addr count p (rfl | rfl | ⟨b, rfl⟩ | rfl)
  · exact execStart_stage s slave fc plen addr count p
  · exact execTxDone_stage s slave fc plen addr count p
  · exact execRxByte_stage s slave fc plen addr count p b
  · exact execTick_stage s slave fc plen addr count p

end Sys2Proof.Machine
end

section
/-! Proofs of the family 30_encoding: the decoder and the encoder (O10 to O12), the opcode map of a command write (O13)
and the layout of a request frame (O33). -/

namespace Sys2Proof.Machine

/-! ### Command words -/

/-- Every command row has a word (30_encoding.md R63). -/
theorem exists_encode_of_isCommand {i : Instr} (h : i.isCommand = true) : ∃ w, encode i = some w := by
  cases i with
  | crcInit | crcFeed | crcPbuf | build | start => exact ⟨_, rfl⟩
  | hostRead | hostWrite | txDone | rxByte | tick | reset => cases h

/-- Settles O10: a command has a word, and that word decodes to the command. -/
theorem decodeOfEncodedCommand : Obligations.DecodeOfEncodedCommand := fun _ hwf hcmd =>
  (exists_encode_of_isCommand hcmd).imp fun _ he => ⟨he, decodeCommand_of_encode hwf he⟩

/-- A word whose bits above its lowest `k` and below OPC are zero is OPC in its place beside the low `k` bits
(30_encoding.md R62). -/
theorem eq_opc_or_low {k m : Nat} {v : Word} (hkm : k + m = 24) (hzero : v.extractLsb' k m = 0) :
    v = place 24 (opcOf v) ||| (v.extractLsb' 0 k).setWidth 32 := by
  have hsplit := place_or_place_extractLsb' 0 24 8 v
  have hoperand := place_or_place_extractLsb' 0 k m v
  rw [Nat.zero_add] at hsplit hoperand
  have hlow : place 0 (v.extractLsb' 0 k) = place 0 (v.extractLsb' 0 24) := by
    rw [← hkm, ← hoperand, hzero]
    simp [place]
  calc v
    _ = place 0 (v.extractLsb' 0 (24 + 8)) := by simp [place]
    _ = place 24 (opcOf v) ||| place 0 (v.extractLsb' 0 k) := by rw [← hsplit, hlow, BitVec.or_comm]; rfl
    _ = place 24 (opcOf v) ||| (v.extractLsb' 0 k).setWidth 32 := by simp [place]

/-- A legal word of a command whose OPERAND is reserved as a whole is OPC alone (30_encoding.md R64, R67, R68). -/
theorem encode_of_decodePlain {i j : Instr} {v : Word} (hwf : j.wellFormed = true)
    (hopc : encode j = some (place 24 (opcOf v))) (h : decodePlain j v = .ok i) :
    i.wellFormed = true ∧ encode i = some v := by
  unfold decodePlain at h
  split_ifs at h with hzero
  cases h
  have hv : v = place 24 (opcOf v) := by simpa using eq_opc_or_low (k := 0) rfl hzero
  exact ⟨hwf, hopc.trans (congrArg some hv.symm)⟩

/-- A legal CRC_FEED word is its OPC beside BYTE (30_encoding.md R65). -/
theorem encode_of_decodeCrcFeed {v : Word} {i : Instr} (hopc : opcOf v = 0x02#8) (h : decodeCrcFeed v = .ok i) :
    i.wellFormed = true ∧ encode i = some v := by
  unfold decodeCrcFeed at h
  split_ifs at h with hzero
  cases h
  have hv := eq_opc_or_low (k := 8) rfl hzero
  rw [hopc] at hv
  exact ⟨rfl, congrArg some hv.symm⟩

/-- A legal CRC_PBUF word is its OPC beside N (30_encoding.md R66). -/
theorem encode_of_decodeCrcPbuf {v : Word} {i : Instr} (hopc : opcOf v = 0x03#8) (h : decodeCrcPbuf v = .ok i) :
    i.wellFormed = true ∧ encode i = some v := by
  unfold decodeCrcPbuf at h
  split_ifs at h with hzero hcount
  cases h
  have hv := eq_opc_or_low (k := 9) rfl hzero
  rw [hopc] at hv
  exact ⟨hcount, congrArg some hv.symm⟩

/-- The command a word decodes to is well formed, and the word is its encoding (30_encoding.md R63, R69). -/
theorem encode_of_decodeCommand {v : Word} {i : Instr} (h : decodeCommand v = .ok i) :
    i.wellFormed = true ∧ encode i = some v := by
  unfold decodeCommand at h
  split_ifs at h with hinit hfeed hpbuf hbuild hstart
  · exact encode_of_decodePlain rfl (by rw [hinit]; rfl) h
  · exact encode_of_decodeCrcFeed hfeed h
  · exact encode_of_decodeCrcPbuf hpbuf h
  · exact encode_of_decodePlain rfl (by rw [hbuild]; rfl) h
  · exact encode_of_decodePlain rfl (by rw [hstart]; rfl) h

/-- Settles O11: each row of the decoder tests OPC and every reserved bit, so only the operand's bits are free. -/
theorem encodeOfDecodedWord : Obligations.EncodeOfDecodedWord := fun _ _ h =>
  have ⟨hwf, he⟩ := encode_of_decodeCommand h
  ⟨hwf, isCommand_of_decode h, he⟩

/-- The word of a well-formed command is read as that command (30_encoding.md R64 to R68). -/
theorem commandOf_of_encode {i : Instr} {w : Word} (hwf : i.wellFormed = true) (he : encode i = some w) :
    commandOf w = some i :=
  commandOf_eq_some_iff.2 (decodeCommand_of_encode hwf he)

/-- A word the decoder rejects is no command (30_encoding.md R69). -/
theorem commandOf_of_reject {w : Word} {e : DecodeReject} (h : decodeCommand w = .error e) : commandOf w = none := by
  rw [commandOf, h]

/-- Settles O12: the legal words are encodings of their commands, and the others are rejected for a reserved operand bit,
a count above 256 and a reserved OPC. -/
theorem specWordsDecode : Obligations.SpecWordsDecode :=
  ⟨commandOf_of_encode (i := .crcInit) rfl rfl, commandOf_of_encode (i := .crcFeed 0x31) rfl rfl,
    commandOf_of_encode (i := .crcPbuf 256) rfl rfl, commandOf_of_encode (i := .build) rfl rfl,
    commandOf_of_encode (i := .start) rfl rfl, commandOf_of_reject (e := .reservedOperandBits) rfl,
    commandOf_of_reject (e := .pbufCountAbove256) rfl, commandOf_of_reject (e := .reservedOpcode) rfl⟩

/-! ### The opcode map of a command write -/

/-- A word is an operand beside a fixed part above it exactly when it agrees with the fixed part from bit `n` up and its
low `n` bits are the operand. -/
theorem or_low_eq_iff {n : Nat} {c v : Word} {x : BitVec n} (hn : n ≤ 32)
    (hc : c &&& ~~~(BitVec.allOnes n).setWidth 32 = c) :
    c ||| x.setWidth 32 = v ↔ v &&& ~~~(BitVec.allOnes n).setWidth 32 = c ∧ v.extractLsb' 0 n = x := by
  constructor
  · rintro rfl
    have hlow : c.extractLsb' 0 n = 0#n := by
      rw [← hc]
      ext i hi
      simp [hi]
    constructor
    · rw [BitVec.and_comm, BitVec.and_or_distrib_left, BitVec.and_comm, hc]
      ext i hi
      rcases Nat.lt_or_ge i n with h | h <;> simp [h, BitVec.getLsbD_of_ge]
    · rw [BitVec.extractLsb'_or, hlow, BitVec.zero_or]
      ext i hi
      simp [BitVec.getLsbD_eq_getElem hi]; omega
  · rintro ⟨rfl, rfl⟩
    ext i hi
    by_cases h : i < n <;> simp [h, BitVec.getLsbD_eq_getElem hi]

/-- The words of CRC_FEED are those of its row of the opcode map (30_encoding.md R70). -/
theorem encode_crcFeed_eq_some_iff {b : Byte} {v : Word} :
    encode (.crcFeed b) = some v ↔ v &&& 0xFFFFFF00#32 = 0x02000000#32 ∧ v.extractLsb' 0 8 = b :=
  Option.some_inj.trans (or_low_eq_iff (by omega) rfl)

/-- The words of CRC_PBUF, N above 256 among them, are those of its row of the opcode map (30_encoding.md R70). -/
theorem encode_crcPbuf_eq_some_iff {n : BitVec 9} {v : Word} :
    encode (.crcPbuf n) = some v ↔ v &&& 0xFFFFFE00#32 = 0x03000000#32 ∧ v.extractLsb' 0 9 = n :=
  Option.some_inj.trans (or_low_eq_iff (by omega) rfl)

/-- A word the decoder rejects sets cmdStatus to IllegalCommand and completes (30_encoding.md R69). -/
theorem execCommandWord_of_reject {v : Word} {e : DecodeReject} (h : decodeCommand v = .error e) (s : State) :
    execCommandWord v s = .next (s.report .illegalCommand) := by
  rw [execCommandWord, h]

/-- A word of no row of the opcode map is rejected: a legal one would be the word of its command, which has a row. -/
theorem exists_reject_of_no_row {v : Word} (hinit : v ≠ 0x01000000#32)
    (hfeed : v &&& 0xFFFFFF00#32 ≠ 0x02000000#32)
    (hpbuf : ¬(v &&& 0xFFFFFE00#32 = 0x03000000#32 ∧ (v.extractLsb' 0 9).toNat ≤ 256))
    (hbuild : v ≠ 0x10000000#32) (hstart : v ≠ 0x11000000#32) : ∃ e, decodeCommand v = .error e := by
  cases hd : decodeCommand v with
  | error e => exact ⟨e, rfl⟩
  | ok i =>
    exfalso
    obtain ⟨hwf, he⟩ := encode_of_decodeCommand hd
    cases i with
    | crcInit => cases he; exact hinit rfl
    | crcFeed b => exact hfeed (encode_crcFeed_eq_some_iff.1 he).1
    | crcPbuf n =>
      obtain ⟨hrow, rfl⟩ := encode_crcPbuf_eq_some_iff.1 he
      exact hpbuf ⟨hrow, of_decide_eq_true hwf⟩
    | build => cases he; exact hbuild rfl
    | start => cases he; exact hstart rfl
    | hostRead | hostWrite | txDone | rxByte | tick | reset => cases he

/-- Conditions that fix OPC to different values exclude one another. -/
theorem pairwise_exclusive_of_opcOf {v : Word} {rows : List (Byte × Prop)} (h : ∀ r ∈ rows, r.2 → opcOf v = r.1)
    (hd : (rows.map Prod.fst).Nodup) : (rows.map Prod.snd).Pairwise fun p q => ¬(p ∧ q) := by
  rw [List.Nodup, List.pairwise_map] at hd
  exact List.pairwise_map.2 (hd.imp_of_mem fun ha hb hne ⟨hp, hq⟩ => hne ((h _ ha hp).symm.trans (h _ hb hq)))

/-- Settles O13: a word of a row is the word of the row's command, and a word of none is rejected; the rows' OPCs differ. -/
theorem commandWriteRunsOpcodeMap : Obligations.CommandWriteRunsOpcodeMap := by
  intro v
  constructor
  · intro s
    rw [show exec (.hostWrite 0x000 4 v) s = execCommandWord v s from execHostWrite_register .cmd v s]
    have hrun {i : Instr} (hwf : i.wellFormed = true) (he : encode i = some v) : execCommandWord v s = exec i s :=
      execCommandWord_of_decode (decodeCommand_of_encode hwf he) s
    split_ifs with hinit hfeed hpbuf hbuild hstart
    · exact hrun rfl (hinit ▸ rfl)
    · exact hrun rfl (encode_crcFeed_eq_some_iff.2 ⟨hfeed, rfl⟩)
    · exact hrun (decide_eq_true hpbuf.2) (encode_crcPbuf_eq_some_iff.2 ⟨hpbuf.1, rfl⟩)
    · exact hrun rfl (hbuild ▸ rfl)
    · exact hrun rfl (hstart ▸ rfl)
    · obtain ⟨e, he⟩ := exists_reject_of_no_row hinit hfeed hpbuf hbuild hstart
      exact execCommandWord_of_reject he s
  · have hfeed (h : v &&& 0xFFFFFF00#32 = 0x02000000#32) : opcOf v = 0x02#8 :=
      Option.some.inj (encode_crcFeed_eq_some_iff.2 ⟨h, rfl⟩) ▸ opcOf_or_byte _
    have hpbuf (h : v &&& 0xFFFFFE00#32 = 0x03000000#32) : opcOf v = 0x03#8 :=
      Option.some.inj (encode_crcPbuf_eq_some_iff.2 ⟨h, rfl⟩) ▸ opcOf_or_count _
    refine pairwise_exclusive_of_opcOf (v := v) (rows := [(0x01, _), (0x02, _), (0x03, _), (0x10, _), (0x11, _)]) ?_ ?_
    · simp only [List.forall_mem_cons]
      exact ⟨(· ▸ rfl), hfeed, hpbuf, (· ▸ rfl), (· ▸ rfl), List.forall_mem_nil _⟩
    · simp

/-! ### The request frame -/

/-- The trailer follows the body and leaves its bytes where they are. -/
theorem take_withTrailer (body : List Byte) : (withTrailer body).take body.length = body := by
  simp [withTrailer]

/-- The two bytes after the body are its checksum (20_memory.md R58). -/
theorem getElem?_withTrailer (body : List Byte) :
    (withTrailer body)[body.length]? = some (lo (crc16 body)) ∧
      (withTrailer body)[body.length + 1]? = some (hi (crc16 body)) := by
  simp [withTrailer]

/-- Settles O33: six header bytes, the payload, and the trailer of both. -/
theorem requestFrameLayout : Obligations.RequestFrameLayout := by
  intro slave fc addr count payload f P
  have hlen : (requestBody slave fc addr count payload).length = 6 + P := by simp [requestBody, P]; omega
  have htake : f.take (6 + P) = requestBody slave fc addr count payload := by
    rw [← hlen]
    exact take_withTrailer _
  obtain ⟨hlo, hhi⟩ := getElem?_withTrailer (requestBody slave fc addr count payload)
  refine ⟨length_encodeRequest .., rfl, rfl, rfl, rfl, rfl, rfl, fun j hj => ?_, ?_, ?_⟩
  · have hbody : 6 + j < (requestBody slave fc addr count payload).length := by omega
    calc f[6 + j]?
      _ = (requestBody slave fc addr count payload)[6 + j]? := List.getElem?_append_left hbody
      _ = payload[j]? := by rw [Nat.add_comm]; rfl
  · rw [htake, ← hlen]
    exact hlo
  · rw [htake, show 7 + P = 6 + P + 1 by omega, ← hlen]
    exact hhi

end Sys2Proof.Machine
end

section
/-! Proofs of the family 40_crc: the checksum over lists (O30 to O32), the three checksum commands (O26 to O28) and the
independence of the checksum unit (O29). -/

namespace Sys2Proof.Machine

/-! ### The checksum over lists -/

/-- Another byte in the place of one of a list changes the checksum (40_crc.md R83): its update is injective in the
byte, and each update after it is injective in the accumulator. -/
theorem crc16_set_ne {l : List Byte} {i : Nat} {a b : Byte} (hb : l[i]? = some b) (hne : a ≠ b) :
    crc16 (l.set i a) ≠ crc16 l := by
  obtain ⟨hi, rfl⟩ := List.getElem?_eq_some_iff.1 hb
  have hset (x : Byte) :
      crc16 (l.set i x) = (l.drop (i + 1)).foldl crcByte (crcByte (crc16 (l.take i)) x) := by
    rw [List.set_eq_take_cons_drop x hi, crc16_append, List.foldl_cons]
  intro h
  have hfold : crc16 (l.set i a) = crc16 (l.set i l[i]) := by rw [h, List.set_getElem_self]
  rw [hset, hset] at hfold
  exact hne (crcByte_right_injective (foldl_crcByte_injective _ hfold))

/-- A byte with one bit flipped is another byte. -/
theorem xor_bit_ne {k : Nat} (hk : k < 8) (b : Byte) : b ^^^ (1#8 <<< k) ≠ b := by
  intro h
  have hbit : (b ^^^ (1#8 <<< k)).getLsbD k = b.getLsbD k := by rw [h]
  simp [hk] at hbit

/-- Settles O30: a flipped bit makes another byte, and another byte makes another checksum. -/
theorem singleBitErrorsChangeTheChecksum : Obligations.SingleBitErrorsChangeTheChecksum := fun _ _ _ b hb hk =>
  crc16_set_ne hb (xor_bit_ne hk b)

/-- Folding the accumulator's own low byte leaves its high one (40_crc.md R76). -/
theorem crcByte_lo_eq_hi (c : Half) : crcByte c (lo c) = (hi c).setWidth 16 := by
  rw [crcByte_lo]
  ext i hi16
  simp only [hi, BitVec.getElem_ushiftRight, BitVec.getElem_setWidth, BitVec.getLsbD_extractLsb']
  have hlt (hbit : c.getLsbD (8 + i) = true) : i < 8 := by
    have := BitVec.lt_of_getLsbD hbit
    omega
  simpa using hlt

/-- Folding the byte that is the whole accumulator leaves 0: no bit is set in any turn of the loop (40_crc.md R76). -/
theorem crcByte_setWidth_self (y : Byte) : crcByte (y.setWidth 16) y = 0x0000#16 := by
  rw [crcByte, BitVec.xor_self]
  rfl

/-- Two more bytes bring the accumulator to 0 exactly when they are its own, low byte first (40_crc.md R84). -/
theorem crcByte_crcByte_eq_zero_iff {c : Half} {x y : Byte} :
    crcByte (crcByte c x) y = 0x0000#16 ↔ c = le16 x y := by
  constructor
  · intro h
    have hx : crcByte c x = y.setWidth 16 := crcByte_eq_zero h
    obtain rfl : x = lo c := eq_lo_of_crcByte hx
    have hy : hi c = y := by simpa [crcByte_lo_eq_hi] using congrArg (BitVec.setWidth 8) hx
    rw [← hy, le16_lo_hi]
  · rintro rfl
    have hx : crcByte (le16 x y) x = y.setWidth 16 := by simpa using crcByte_lo_eq_hi (le16 x y)
    rw [hx, crcByte_setWidth_self]

/-- On a list of 4 bytes or more the trailing checksum is the only test of `parse` (41_frame_codec.md R88, R98). -/
theorem exists_parse_eq_ok_iff {bs : List Byte} (h : 4 ≤ bs.length) :
    (∃ r, parse bs = .ok r) ↔ crc16 (checkedPart bs) = trailerOf bs := by
  rw [parse, if_neg (Nat.not_lt.2 h)]
  split <;> simp [*]

/-- Settles O32: both tests compare the last two bytes with the checksum of those before. -/
theorem checksumOverTrailerIsZero : Obligations.ChecksumOverTrailerIsZero := by
  have hpair (l : List Byte) (x y : Byte) : crc16 (l ++ [x, y]) = 0x0000#16 ↔ crc16 l = le16 x y := by
    rw [crc16_append]
    exact crcByte_crcByte_eq_zero_iff
  refine ⟨fun l => (hpair ..).2 (le16_lo_hi _).symm, fun bs hlen => ?_⟩
  obtain ⟨x, y, hbs, htrailer⟩ := eq_checkedPart_append (bs := bs) (by omega)
  rw [exists_parse_eq_ok_iff hlen, htrailer, ← hpair, ← hbs]

/-- Settles O31: closed values, computed. -/
theorem checksumCheckValue : Obligations.ChecksumCheckValue :=
  ⟨by decide +kernel, crc16_nil, rfl, rfl, rfl⟩

/-! ### The checksum commands -/

/-- CRC_INIT (40_crc.md R79). -/
theorem exec_crcInit (s : State) : exec .crcInit s = .next ((s.setCrc crcInitial).report .ok) := rfl

/-- CRC_FEED (40_crc.md R80). -/
theorem exec_crcFeed (b : Byte) (s : State) :
    exec (.crcFeed b) s = .next ((s.setCrc (crcByte s.crcAcc b)).report .ok) := rfl

/-- CRC_PBUF goes on with the checksum of the payload, where every byte of it is written (40_crc.md R81). -/
theorem exec_crcPbuf_eq_next_iff {n : BitVec 9} {s t : State} :
    exec (.crcPbuf n) s = .next t ↔
      ∃ bytes, s.payload n.toNat = some bytes ∧ t = (s.setCrc (crc16 bytes)).report .ok := by
  rw [exec_crcPbuf, execCrcPbuf]
  cases s.payload n.toNat <;> simp [eq_comm]

/-- CRC_PBUF faults exactly where a byte of the payload is unwritten (40_crc.md R81). -/
theorem exec_crcPbuf_eq_fault_iff {n : BitVec 9} {s : State} :
    exec (.crcPbuf n) s = .fault .uninitPayload ↔ s.payload n.toNat = none := by
  rw [exec_crcPbuf, execCrcPbuf]
  cases s.payload n.toNat <;> simp

/-- A word write to CMD runs its word (30_encoding.md R70). -/
theorem exec_commandWrite (v : Word) (s : State) : exec (.hostWrite 0x000 4 v) s = execCommandWord v s :=
  execHostWrite_register .cmd v s

/-- A word with OPC of CRC_FEED and a reserved bit set is no command (30_encoding.md R65, R69). -/
theorem decodeCommand_crcFeed_reserved {v : Word} (hopc : opcOf v = 0x02#8) (hres : v.extractLsb' 8 16 ≠ 0#16) :
    decodeCommand v = .error .reservedOperandBits := by
  simp [decodeCommand, hopc, decodeCrcFeed, hres]

/-- A word with OPC of CRC_PBUF and a count above 256 is no command (30_encoding.md R66, R69). -/
theorem decodeCommand_crcPbuf_above {n : BitVec 9} (hn : 256 < n.toNat) :
    decodeCommand (0x03000000#32 ||| n.setWidth 32) = .error .pbufCountAbove256 := by
  have hreserved : (0x03000000#32 ||| n.setWidth 32).extractLsb' 9 15 = 0 := by decide +revert
  have hcount : (0x03000000#32 ||| n.setWidth 32).extractLsb' 0 9 = n := (encode_crcPbuf_eq_some_iff.1 rfl).2
  have habove : ¬ pbufCountOk n = true := by simpa [pbufCountOk] using hn
  simp [decodeCommand, decodeCrcPbuf, hreserved, hcount, habove]

/-- Settles O26: CRC_INIT writes constants alone. -/
theorem crcInitSetsInitialValue : Obligations.CrcInitSetsInitialValue := fun s =>
  ⟨exec_crcInit s, fun t h => by cases h; rfl⟩

/-- The step that takes a command's event runs the command (00_scope.md R16, 20_memory.md R56). -/
theorem step_of_command {s : State} {i : Instr} {rest : List Input} (hwf : i.wellFormed = true)
    (hcmd : i.isCommand = true) (hs : s.inputs = inputOf s.cfg i :: rest) : step s = exec i (s.withInputs rest) :=
  step_of_fetch hs (fetchInput_inputOf s.cfg hwf (.inr hcmd))

/-- A run of CRC_FEED events folds their bytes into the accumulator one by one (40_crc.md R80). -/
theorem runSteps_crcFeeds (s : State) (c : Half) (bytes : List Byte) (rest : List Input) :
    runSteps bytes.length
        (((s.setCrc c).report .ok).withInputs ((bytes.map Instr.crcFeed).map (inputOf s.cfg) ++ rest)) =
      .next (((s.setCrc (bytes.foldl crcByte c)).report .ok).withInputs rest) := by
  induction bytes generalizing c with
  | nil => rfl
  | cons b bytes ih =>
    have hstep := step_of_command (i := .crcFeed b)
      (s := ((s.setCrc c).report .ok).withInputs (((b :: bytes).map Instr.crcFeed).map (inputOf s.cfg) ++ rest))
      rfl rfl rfl
    exact (runSteps_succ_of_step _ hstep).trans (ih (crcByte c b))

/-- Settles O27: CRC_INIT leaves the initial value, each CRC_FEED folds its byte in, an illegal word only reports. -/
theorem crcFeedAccumulatesTheChecksum : Obligations.CrcFeedAccumulatesTheChecksum := by
  refine ⟨fun s b => exec_crcFeed b s, fun s bytes rest hin => ?_, fun s v hopc hres => ?_⟩
  · exact (runSteps_succ_of_step _ (step_of_command rfl rfl hin)).trans (runSteps_crcFeeds s crcInitial bytes rest)
  · rw [exec_commandWrite]
    exact execCommandWord_of_reject (decodeCommand_crcFeed_reserved hopc hres) s

/-- Settles O28: the payload CRC_PBUF reads has a value exactly where all its bytes are written. -/
theorem crcPbufChecksumsTheBuffer : Obligations.CrcPbufChecksumsTheBuffer := by
  refine ⟨fun s n bytes _ hlen hread => ?_, fun s n _ hnone => ?_, fun s n hn => ?_⟩
  · have hpayload : s.payload n.toNat = some bytes :=
      (Memory.readRun_eq_some_iff ..).2 ⟨hlen, by simpa using hread⟩
    exact exec_crcPbuf_eq_next_iff.2 ⟨bytes, hpayload, rfl⟩
  · exact exec_crcPbuf_eq_fault_iff.2 ((Memory.readRun_eq_none_iff ..).2 (by simpa using hnone))
  · rw [exec_commandWrite]
    exact execCommandWord_of_reject (decodeCommand_crcPbuf_above hn) s

/-! ### What writes and what reads the accumulator -/

/-- The commands of the checksum unit (40_crc.md R79 to R81). -/
def IsChecksumCommand (i : Instr) : Prop := i = .crcInit ∨ (∃ b, i = .crcFeed b) ∨ ∃ n, i = .crcPbuf n

/-- A checksum command that goes on leaves a value in the accumulator and reports OK (40_crc.md R82). -/
theorem IsChecksumCommand.eq_of_exec {i : Instr} (hi : IsChecksumCommand i) {s t : State} (h : exec i s = .next t) :
    ∃ c, t = (s.setCrc c).report .ok := by
  obtain rfl | ⟨b, rfl⟩ | ⟨n, rfl⟩ := hi
  · cases h; exact ⟨_, rfl⟩
  · cases h; exact ⟨_, rfl⟩
  · obtain ⟨bytes, -, rfl⟩ := exec_crcPbuf_eq_next_iff.1 h
    exact ⟨_, rfl⟩

section

variable (s : State) (c : Half)

theorem execBuild_setCrc : execBuild (s.setCrc c) = mapNext (·.setCrc c) (execBuild s) := by
  rw [execBuild, execBuild, mapNext_ite, mapNext_ite, mapNext_ite]
  refine if_congr Iff.rfl rfl (if_congr Iff.rfl rfl (if_congr Iff.rfl rfl ?_))
  rw [show (s.setCrc c).payload (s.setCrc c).reqPlen.toNat = s.payload s.reqPlen.toNat from rfl]
  cases s.payload s.reqPlen.toNat <;> rfl

theorem execStart_setCrc : execStart (s.setCrc c) = mapNext (·.setCrc c) (execStart s) := by
  rw [execStart, execStart, mapNext_ite, mapNext_ite]
  refine if_congr Iff.rfl rfl (if_congr Iff.rfl rfl ?_)
  dsimp only [State.setCrc]
  cases respLen s.cfg (fcOf s.txFrame) (countOf s.txFrame) <;> rfl

theorem execTxDone_setCrc : execTxDone (s.setCrc c) = mapNext (·.setCrc c) (execTxDone s) := by
  rw [execTxDone, execTxDone, mapNext_ite, mapNext_ite]
  rfl

theorem complete_setCrc (rx : List Byte) : (s.setCrc c).complete rx = (s.complete rx).setCrc c := by
  rw [State.complete, State.complete]
  cases parse rx <;> rfl

theorem execRxByte_setCrc (b : Byte) : execRxByte b (s.setCrc c) = mapNext (·.setCrc c) (execRxByte b s) := by
  rw [execRxByte, execRxByte, mapNext_ite, mapNext_ite, mapNext_ite, complete_setCrc]
  rfl

theorem execTick_setCrc : execTick (s.setCrc c) = mapNext (·.setCrc c) (execTick s) := by
  rw [execTick, execTick, mapNext_ite, mapNext_ite]
  rfl

/-- A word written to CMD that is no checksum command, legal or not, does not read the accumulator (40_crc.md R82). -/
theorem execCommandWord_setCrc {v : Word} (hv : ∀ j, commandOf v = some j → ¬IsChecksumCommand j) :
    execCommandWord v (s.setCrc c) = mapNext (·.setCrc c) (execCommandWord v s) := by
  cases hd : decodeCommand v with
  | error e => rw [execCommandWord_of_reject hd, execCommandWord_of_reject hd]; rfl
  | ok i =>
    have hi : ¬IsChecksumCommand i := hv i (commandOf_eq_some_iff.2 hd)
    rw [execCommandWord_of_decode hd, execCommandWord_of_decode hd]
    cases i with
    | crcInit => exact absurd (.inl rfl) hi
    | crcFeed b => exact absurd (.inr (.inl ⟨b, rfl⟩)) hi
    | crcPbuf n => exact absurd (.inr (.inr ⟨n, rfl⟩)) hi
    | build => exact execBuild_setCrc s c
    | start => exact execStart_setCrc s c
    | hostRead | hostWrite | txDone | rxByte | tick | reset => cases isCommand_of_decode hd

/-- A host write that issues no checksum command does not read the accumulator (40_crc.md R82). -/
theorem execHostWrite_setCrc {off : BitVec 10} {n : Nat} {v : Word}
    (hi : ∀ j, issuedCommand (.hostWrite off n v) = some j → ¬IsChecksumCommand j) :
    execHostWrite off n v (s.setCrc c) = mapNext (·.setCrc c) (execHostWrite off n v s) := by
  cases ha : accessAccepted off n with
  | false => rw [execHostWrite_refused ha, execHostWrite_refused ha]; rfl
  | true =>
    rcases accessAccepted_cases ha with ⟨r, rfl, rfl⟩ | hbuf
    · rw [execHostWrite_register, execHostWrite_register]
      cases r with
      | cmd => exact execCommandWord_setCrc s c hi
      | _ => rfl
    · rcases Nat.lt_or_ge off.toNat 0x200 with hlt | hge
      · rw [execHostWrite_pbuf ha hbuf hlt, execHostWrite_pbuf ha hbuf hlt]; rfl
      · rw [execHostWrite_frameWindow ha hge, execHostWrite_frameWindow ha hge]; rfl

/-- No instruction but a checksum command, a host read and Reset reads the accumulator (40_crc.md R82). -/
theorem exec_setCrc {i : Instr} (hr : i ≠ .reset) (hread : ∀ off n, i ≠ .hostRead off n)
    (hi : ∀ j, issuedCommand i = some j → ¬IsChecksumCommand j) :
    exec i (s.setCrc c) = mapNext (·.setCrc c) (exec i s) := by
  cases i with
  | crcInit => exact absurd (.inl rfl) (hi _ rfl)
  | crcFeed b => exact absurd (.inr (.inl ⟨b, rfl⟩)) (hi _ rfl)
  | crcPbuf n => exact absurd (.inr (.inr ⟨n, rfl⟩)) (hi _ rfl)
  | build => exact execBuild_setCrc s c
  | start => exact execStart_setCrc s c
  | hostRead off n => exact absurd rfl (hread off n)
  | hostWrite off n v => exact execHostWrite_setCrc s c hi
  | txDone => exact execTxDone_setCrc s c
  | rxByte b => exact execRxByte_setCrc s c b
  | tick => exact execTick_setCrc s c
  | reset => exact absurd rfl hr

end

/-- Settles O29: only the checksum commands and Reset write the accumulator, and only those and the host reads depend on
it. -/
theorem checksumUnitIsIndependent : Obligations.ChecksumUnitIsIndependent := by
  refine ⟨fun i s t hi h => ?_, fun i s c hr hinit hfeed hpbuf => ⟨fun t h => ?_, fun hread => ?_⟩⟩
  · obtain ⟨c, rfl⟩ := IsChecksumCommand.eq_of_exec hi h
    rfl
  · by_contra hne
    rcases (exec_effect h).crcAcc_writers hr hne with hi | ⟨b, hi⟩ | ⟨n, hi⟩
    · exact hinit hi
    · exact hfeed b hi
    · exact hpbuf n hi
  · refine exec_setCrc s c hr hread fun j hj => ?_
    rintro (rfl | ⟨b, rfl⟩ | ⟨n, rfl⟩)
    · exact hinit hj
    · exact hfeed b hj
    · exact hpbuf n hj

end Sys2Proof.Machine
end

section
/-! Proofs of the family 41_frame_codec: what `parse` accepts (O34), the round trip of a request (O35), the BUILD command
(O36) and the default response lengths (O9). -/

namespace Sys2Proof.Machine

/-! ### Parsing -/

/-- `parse` accepts a list exactly when it is a body of two bytes or more with its own checksum behind it, and answers that
body's parts (41_frame_codec.md R88, R90). -/
theorem parse_eq_ok_iff {bs : List Byte} {r : Response} :
    parse bs = .ok r ↔ ∃ slave fc data, bs = withTrailer (slave :: fc :: data) ∧
      r = { slave := slave, fc := fc, data := data, crc := crc16 (slave :: fc :: data) } := by
  constructor
  · intro h
    obtain ⟨slave, fc, data, rfl⟩ := eq_withTrailer_of_parse_ok h
    rw [parse_withTrailer] at h
    exact ⟨slave, fc, data, rfl, (Parsed.ok.inj h).symm⟩
  · rintro ⟨slave, fc, data, rfl, rfl⟩
    exact parse_withTrailer slave fc data

/-- `parse` has two answers (41_frame_codec.md R88, R89). -/
theorem parse_eq_crcError_iff {bs : List Byte} : parse bs = .crcError ↔ ∀ r, parse bs ≠ .ok r := by
  cases parse bs <;> simp

/-- Settles O34: the trailer `withTrailer` appends is the one the statement writes out. -/
theorem parseAcceptsExactlyValidFrames : Obligations.ParseAcceptsExactlyValidFrames := fun _ =>
  ⟨fun _ => parse_eq_ok_iff, parse_eq_crcError_iff⟩

/-! ### The fields of a request frame -/

section

variable (slave fc : Byte) (addr count : Half) (p : List Byte)

theorem slaveOf_encodeRequest : slaveOf (encodeRequest slave fc addr count p) = slave := rfl

theorem fcOf_encodeRequest : fcOf (encodeRequest slave fc addr count p) = fc := rfl

theorem addrOf_encodeRequest : addrOf (encodeRequest slave fc addr count p) = addr := be16_hi_lo addr

/-- The payload is what is left of the checked part after the six header bytes (41_frame_codec.md R91). -/
theorem payloadOf_encodeRequest : payloadOf (encodeRequest slave fc addr count p) = p := by
  rw [payloadOf, encodeRequest, withTrailer, checkedPart_append_pair]
  rfl

/-- A request frame parses as a response of its slave and function code (41_frame_codec.md R94). -/
theorem parse_encodeRequest : parse (encodeRequest slave fc addr count p) =
    .ok { slave := slave, fc := fc, data := [hi addr, lo addr, hi count, lo count] ++ p,
          crc := crc16 (requestBody slave fc addr count p) } :=
  parse_withTrailer ..

end

/-- Settles O35: `parse` undoes the trailer, and each view undoes one part of the body. -/
theorem requestFrameRoundTrip : Obligations.RequestFrameRoundTrip := fun slave fc addr count payload =>
  ⟨⟨_, parse_encodeRequest slave fc addr count payload, rfl, rfl⟩, slaveOf_encodeRequest .., fcOf_encodeRequest ..,
    addrOf_encodeRequest .., countOf_encodeRequest .., payloadOf_encodeRequest ..⟩

/-! ### The BUILD command, one equation for each outcome of 41_frame_codec.md R95 -/

section

variable {s : State}

theorem execBuild_of_busy (hs : s.state ≠ .idle) : execBuild s = .next (s.report .busy) := if_pos hs

theorem execBuild_of_lengthExceeded (hs : s.state = .idle) (hcount : s.cfg.maxCount < s.reqCount.toNat) :
    execBuild s = .next ((s.setFrame []).report .lengthExceeded) := by
  rw [execBuild, if_neg (not_not.2 hs), if_pos hcount]

theorem execBuild_of_txOverflow (hs : s.state = .idle) (hcount : s.reqCount.toNat ≤ s.cfg.maxCount)
    (hplen : s.cfg.txCapacity - Config.frameOverhead < s.reqPlen.toNat) :
    execBuild s = .next ((s.setFrame []).report .txOverflow) := by
  rw [execBuild, if_neg (not_not.2 hs), if_neg (Nat.not_lt.2 hcount), if_pos hplen]

theorem execBuild_of_unwritten (hs : s.state = .idle) (hcount : s.reqCount.toNat ≤ s.cfg.maxCount)
    (hplen : s.reqPlen.toNat ≤ s.cfg.txCapacity - Config.frameOverhead) (hp : s.payload s.reqPlen.toNat = none) :
    execBuild s = .fault .uninitPayload := by
  rw [execBuild, if_neg (not_not.2 hs), if_neg (Nat.not_lt.2 hcount), if_neg (Nat.not_lt.2 hplen), hp]

theorem execBuild_of_payload (hs : s.state = .idle) (hcount : s.reqCount.toNat ≤ s.cfg.maxCount)
    (hplen : s.reqPlen.toNat ≤ s.cfg.txCapacity - Config.frameOverhead) {bytes : List Byte}
    (hp : s.payload s.reqPlen.toNat = some bytes) :
    execBuild s = .next ((s.setFrame (s.requestFrame bytes)).report .ok) := by
  rw [execBuild, if_neg (not_not.2 hs), if_neg (Nat.not_lt.2 hcount), if_neg (Nat.not_lt.2 hplen), hp]

end

/-- The payload has no value exactly when one of its bytes is unwritten (41_frame_codec.md R95). -/
theorem payload_eq_none_iff {s : State} {n : Nat} : s.payload n = none ↔ ∃ k, k < n ∧ s.pbuf.read k = none := by
  simpa [State.payload] using s.pbuf.readRun_eq_none_iff 0 n

/-- The payload is the list of the bytes at its addresses (41_frame_codec.md R95). -/
theorem payload_eq_some_iff {s : State} {n : Nat} {bytes : List Byte} :
    s.payload n = some bytes ↔ bytes.length = n ∧ ∀ k, k < n → s.pbuf.read k = bytes[k]? := by
  simpa [State.payload] using s.pbuf.readRun_eq_some_iff 0 n bytes

/-- Settles O36: one equation of BUILD for each clause. -/
theorem buildEncodesOrReports : Obligations.BuildEncodesOrReports := fun _ =>
  ⟨execBuild_of_busy, execBuild_of_lengthExceeded, execBuild_of_txOverflow,
    fun hs hcount hplen hnone => execBuild_of_unwritten hs hcount hplen (payload_eq_none_iff.2 hnone),
    fun _ hs hcount hplen hlen hread => execBuild_of_payload hs hcount hplen (payload_eq_some_iff.2 ⟨hlen, hread⟩)⟩

/-! ### The default response lengths, one equation for each row of 41_frame_codec.md R96 -/

section

variable {fc : Byte} (count : Half)

theorem defaultRespLen_readBits (h : fc = 0x01#8 ∨ fc = 0x02#8) :
    defaultRespLen fc count = some (5 + (count.toNat + 7) / 8) := if_pos h

theorem defaultRespLen_readRegisters (h : fc = 0x03#8 ∨ fc = 0x04#8) :
    defaultRespLen fc count = some (5 + 2 * count.toNat) := by
  obtain rfl | rfl := h <;> rfl

theorem defaultRespLen_write (h : fc = 0x05#8 ∨ fc = 0x06#8 ∨ fc = 0x0F#8 ∨ fc = 0x10#8) :
    defaultRespLen fc count = some 8 := by
  obtain rfl | rfl | rfl | rfl := h <;> rfl

theorem defaultRespLen_unsupported
    (h : fc ∉ [0x01#8, 0x02#8, 0x03#8, 0x04#8, 0x05#8, 0x06#8, 0x0F#8, 0x10#8]) :
    defaultRespLen fc count = none := by
  simp only [List.mem_cons, List.not_mem_nil, or_false, not_or] at h
  simp [defaultRespLen, h]

end

/-- Settles O9: without an override RESP_LEN is the default table, row by row. -/
theorem defaultResponseLengths : Obligations.DefaultResponseLengths := by
  intro cfg count hnone
  simp only [respLen_no_override hnone]
  refine ⟨fun fc h => ⟨_, defaultRespLen_readBits count h, rfl, ?_⟩,
    fun fc h => ⟨_, defaultRespLen_readRegisters count h, rfl, ?_⟩,
    fun fc => defaultRespLen_write count, fun fc => defaultRespLen_unsupported count⟩
  · omega
  · omega

end Sys2Proof.Machine
end

section
/-! Proofs of the family 42_transaction: one equation for each outcome of START, TxDone, RxByte and Tick (O37 to
O40). -/

namespace Sys2Proof.Machine

section

variable {s : State}

/-! The instructions' meanings, as `exec` runs them. -/

theorem exec_rxByte (b : Byte) : exec (.rxByte b) s = execRxByte b s := rfl
theorem exec_tick : exec .tick s = execTick s := rfl

/-! ### START (42_transaction.md R100) -/

theorem execStart_of_busy (hs : s.state ≠ .idle) : execStart s = .next (s.report .busy) := if_pos hs

theorem execStart_of_noFrame (hs : s.state = .idle) (hf : s.txFrame = []) :
    execStart s = .next (s.report .noFrame) := by
  rw [execStart, if_neg (not_not.2 hs), if_pos hf]

theorem execStart_of_unsupported (hs : s.state = .idle) (hf : s.txFrame ≠ [])
    (hl : respLen s.cfg (fcOf s.txFrame) (countOf s.txFrame) = none) :
    execStart s = .next (s.report .unsupportedFunction) := by
  rw [execStart, if_neg (not_not.2 hs), if_neg hf, hl]

theorem execStart_of_respLen (hs : s.state = .idle) (hf : s.txFrame ≠ []) {len : Nat}
    (hl : respLen s.cfg (fcOf s.txFrame) (countOf s.txFrame) = some len) :
    execStart s = .next ((s.beginTransaction len).report .ok) := by
  rw [execStart, if_neg (not_not.2 hs), if_neg hf, hl]

/-! ### TxDone (42_transaction.md R102, R104) -/

theorem execTxDone_of_not_transmitting (hs : s.state ≠ .transmitting) : execTxDone s = .next s := if_pos hs

theorem execTxDone_of_lt (hs : s.state = .transmitting) (hi : s.txIdx + 1 < s.txFrame.length) :
    execTxDone s = .next s.advanceTx := by
  rw [execTxDone, if_neg (not_not.2 hs), if_pos hi]

theorem execTxDone_of_last (hs : s.state = .transmitting) (hi : s.txFrame.length ≤ s.txIdx + 1) :
    execTxDone s = .next s.awaitResponse := by
  rw [execTxDone, if_neg (not_not.2 hs), if_neg (Nat.not_lt.2 hi)]

/-! ### RxByte (42_transaction.md R106, R108, R111) -/

theorem complete_of_ok {rx : List Byte} {r : Response} (h : parse rx = .ok r) :
    s.complete rx = s.endTransaction .complete rx := by
  rw [State.complete, h]

theorem complete_of_crcError {rx : List Byte} (h : parse rx = .crcError) :
    s.complete rx = s.endTransaction .crcError [] := by
  rw [State.complete, h]

theorem execRxByte_of_not_awaiting (hs : s.state ≠ .awaitingResponse) (b : Byte) : execRxByte b s = .next s := if_pos hs

theorem execRxByte_of_full (hs : s.state = .awaitingResponse) (hfull : s.cfg.rxCapacity ≤ s.rxFrame.length) (b : Byte) :
    execRxByte b s = .next s.markOverrun := by
  rw [execRxByte, if_neg (not_not.2 hs), if_neg (Nat.not_lt.2 hfull)]

theorem execRxByte_of_more (hs : s.state = .awaitingResponse) (hroom : s.rxFrame.length < s.cfg.rxCapacity)
    (hmore : s.rxFrame.length + 1 ≠ s.rxExpect) (b : Byte) : execRxByte b s = .next (s.setRx (s.rxFrame ++ [b])) := by
  rw [execRxByte, if_neg (not_not.2 hs), if_pos hroom, List.length_append, List.length_singleton, if_neg hmore]

theorem execRxByte_of_last (hs : s.state = .awaitingResponse) (hroom : s.rxFrame.length < s.cfg.rxCapacity)
    (hlast : s.rxFrame.length + 1 = s.rxExpect) (b : Byte) :
    execRxByte b s = .next (s.complete (s.rxFrame ++ [b])) := by
  rw [execRxByte, if_neg (not_not.2 hs), if_pos hroom, List.length_append, List.length_singleton, if_pos hlast]

/-! ### Tick (42_transaction.md R112, R114) -/

theorem execTick_of_not_awaiting (hs : s.state ≠ .awaitingResponse) : execTick s = .next s := if_pos hs

theorem execTick_of_lt (hs : s.state = .awaitingResponse) (hw : s.ticks.toNat + 1 < s.window) :
    execTick s = .next (s.setTicks (s.ticks.toNat + 1)) := by
  rw [execTick, if_neg (not_not.2 hs), if_neg (Nat.not_le.2 hw)]

theorem execTick_of_expired (hs : s.state = .awaitingResponse) (hw : s.window ≤ s.ticks.toNat + 1) :
    execTick s = .next ((s.setTicks (s.ticks.toNat + 1)).endTransaction .timedOut []) := by
  rw [execTick, if_neg (not_not.2 hs), if_pos hw]

/-- One more tick adds 1 to the 16-bit count. -/
theorem setTicks_succ : s.setTicks (s.ticks.toNat + 1) = { s with ticks := s.ticks + 1 } := by
  rw [State.setTicks, BitVec.ofNat_add, BitVec.ofNat_toNat, BitVec.setWidth_eq]
  rfl

/-- The window is a 16-bit count (42_transaction.md R112). -/
theorem window_lt : s.window < 2 ^ 16 := max_lt s.toLatched.isLt (by decide)

/-- A count within the window does not wrap. -/
theorem toNat_ofNat_of_le_window {n : Nat} (h : n ≤ s.window) : (BitVec.ofNat 16 n).toNat = n := by
  rw [BitVec.toNat_ofNat, Nat.mod_eq_of_lt (Nat.lt_of_le_of_lt h window_lt)]

end

/-- DE is the Transmitting state (10_state.md R20). -/
theorem de_eq_true_iff {s : State} : s.de = true ↔ s.state = .transmitting := decide_eq_true_iff

theorem de_eq_false_iff {s : State} : s.de = false ↔ s.state ≠ .transmitting := decide_eq_false_iff_not

theorem txOut_of_transmitting {s : State} (hs : s.state = .transmitting) : s.txOut = s.txFrame[s.txIdx]? := if_pos hs

theorem txOut_of_not_transmitting {s : State} (hs : s.state ≠ .transmitting) : s.txOut = none := if_neg hs

/-- Settles O37: one equation of START for each clause; a transaction begins with byte 0 of the frame offered. -/
theorem startBeginsOrReports : Obligations.StartBeginsOrReports := by
  intro s
  refine ⟨execStart_of_busy, execStart_of_noFrame, execStart_of_unsupported, fun len hs hf hl => ?_⟩
  refine ⟨_, execStart_of_respLen hs hf hl, rfl, de_eq_true_iff.2 rfl, ?_⟩
  rw [txOut_of_transmitting rfl, List.head?_eq_getElem?]
  rfl

/-- Settles O38: one equation of TxDone for each clause. -/
theorem txDoneAdvancesTheFrame : Obligations.TxDoneAdvancesTheFrame := fun _ =>
  ⟨execTxDone_of_not_transmitting, execTxDone_of_lt,
    fun hs hi => ⟨_, execTxDone_of_last hs hi, rfl, de_eq_false_iff.2 EngineState.noConfusion⟩⟩

/-- Settles O39: one equation of RxByte for each clause, and one of `State.complete` for each outcome of `parse`. -/
theorem rxByteAccumulatesAndCompletes : Obligations.RxByteAccumulatesAndCompletes := by
  intro s b
  refine ⟨fun hs => execRxByte_of_not_awaiting hs b, fun hs hfull => execRxByte_of_full hs hfull b,
    fun hs hroom hmore => execRxByte_of_more hs hroom hmore b, fun hs hroom hlast => ?_⟩
  rw [exec_rxByte, execRxByte_of_last hs hroom hlast]
  constructor
  · rintro ⟨r, hp⟩
    rw [complete_of_ok hp]
    rfl
  · intro hp
    rw [complete_of_crcError hp]
    rfl

/-- Settles O40: one equation of Tick for each clause; inside the window the count does not wrap. -/
theorem tickCountsAndExpires : Obligations.TickCountsAndExpires := by
  intro s
  refine ⟨execTick_of_not_awaiting, fun hs hw => ⟨?_, ?_⟩, fun hs hw => ?_⟩
  · rw [exec_tick, execTick_of_lt hs hw, setTicks_succ]
  · calc (s.ticks + 1).toNat
      _ = (s.setTicks (s.ticks.toNat + 1)).ticks.toNat := by rw [setTicks_succ]
      _ = s.ticks.toNat + 1 := toNat_ofNat_of_le_window (Nat.le_of_lt hw)
  · rw [exec_tick, execTick_of_expired hs hw, setTicks_succ]
    rfl

end Sys2Proof.Machine
end

section
/-! Proofs of the family 42_transaction: what each instruction can do to the engine (O41, O42), the window (O48) and an
overlong response (O50). -/

namespace Sys2Proof.Machine

section

variable {i : Instr} {s t : State}

/-! ### The engine state -/

/-- A START reports OK exactly where it begins a transaction (42_transaction.md R100). -/
theorem Effect.status_of_start (h : Effect i s t) (hc : issuedCommand i = some .start) :
    (t.state = .transmitting ∧ t.cmdStatus = .ok) ∨ (t.state = s.state ∧ t.cmdStatus ≠ .ok) := by
  cases h with
  | started => exact .inl ⟨rfl, rfl⟩
  | busy => exact .inr ⟨rfl, CmdStatus.noConfusion⟩
  | startRefused c _ _ _ hk =>
    refine .inr ⟨rfl, ?_⟩
    rcases hk with rfl | rfl <;> exact CmdStatus.noConfusion
  | answered _ hother | crc _ hother | buildRefused _ hother | built _ hother | illegal hother => simp [hc] at hother
  | stored off n v hlo => simp [issuedCommand_buffer n v hlo] at hc
  | _ => simp at hc

/-- Only a START that reports OK enters Transmitting. -/
theorem Effect.start_of_enters_transmitting (h : Effect i s t) (hs : s.state ≠ .transmitting)
    (ht : t.state = .transmitting) : issuedCommand i = some .start ∧ t.cmdStatus = .ok := by
  cases h with
  | started _ hc => exact ⟨hc, rfl⟩
  | txLast | completed | mismatched | expired | reset => cases ht
  | _ => exact absurd ht hs

/-- Only the TxDone of the last byte and Reset leave Transmitting. -/
theorem Effect.last_or_reset_of_leaves_transmitting (h : Effect i s t) (hs : s.state = .transmitting)
    (hidx : s.txIdx < s.txFrame.length) (ht : t.state ≠ .transmitting) :
    (t.state = .awaitingResponse ∧ i = .txDone ∧ s.txIdx + 1 = s.txFrame.length) ∨ (t.state = .idle ∧ i = .reset) := by
  cases h with
  | txLast _ hlast => exact .inl ⟨rfl, rfl, Nat.le_antisymm hidx hlast⟩
  | reset => exact .inr ⟨rfl, rfl⟩
  | started => exact absurd rfl ht
  | completed _ ha | mismatched _ ha | expired ha => simp [hs] at ha
  | _ => exact absurd hs ht

end

/-- Settles O41: DE is the Transmitting state, which a START that reports OK enters and the last TxDone or a Reset
leaves. -/
theorem directionControl : Obligations.DirectionControl := by
  intro i s t hInv h
  have he := exec_effect h
  rw [de_eq_true_iff, de_eq_true_iff, de_eq_false_iff, de_eq_false_iff]
  refine ⟨fun hs => ⟨he.start_of_enters_transmitting hs, fun ⟨hc, hok⟩ => ?_⟩, fun hs => ⟨fun ht => ?_, ?_⟩⟩
  · rcases he.status_of_start hc with ⟨ht, -⟩ | ⟨-, hbad⟩
    · exact ht
    · exact absurd hok hbad
  · exact (he.last_or_reset_of_leaves_transmitting hs (hInv.rule43.b.2 hs) ht).imp And.right And.right
  · rintro (⟨rfl, hlast⟩ | rfl)
    · obtain rfl := Host.Outcome.next.inj ((execTxDone_of_last hs hlast.ge).symm.trans h)
      exact EngineState.noConfusion
    · cases h
      exact EngineState.noConfusion

/-- Settles O42: five effects change the engine state, each under its own guard. -/
theorem engineTransitions : Obligations.EngineTransitions := by
  intro i s t hInv h hne
  have he := exec_effect h
  refine ⟨fun hs => ?_, fun hs => ?_, fun hs => ?_⟩
  · cases he with
    | started _ hc _ _ hf hl => exact ⟨rfl, hc, hf, hl⟩
    | reset => exact absurd hs.symm hne
    | txLast ha | completed _ ha | mismatched _ ha | expired ha => simp [hs] at ha
    | _ => exact absurd rfl hne
  · exact he.last_or_reset_of_leaves_transmitting hs (hInv.rule43.b.2 hs) (hs ▸ hne)
  · cases he with
    | completed b _ _ hlast => exact ⟨rfl, .inl ⟨b, rfl, hlast, .inl rfl⟩⟩
    | mismatched b _ _ hlast => exact ⟨rfl, .inl ⟨b, rfl, hlast, .inr rfl⟩⟩
    | expired _ hw => exact ⟨rfl, .inr (.inl ⟨rfl, Nat.le_antisymm (hInv.rule43.f hs).1 hw, rfl⟩)⟩
    | reset => exact ⟨rfl, .inr (.inr rfl)⟩
    | started _ _ _ hidle => simp [hs] at hidle
    | txLast htx => simp [hs] at htx
    | _ => exact absurd rfl hne

/-! ### The window -/

section

variable {i : Instr} {s t : State}

/-- While the response is awaited the latched window stands, a write to TIMEOUT included (42_transaction.md R137). -/
theorem Effect.toLatched_awaiting (h : Effect i s t) (hs : s.state = .awaitingResponse) (hr : i ≠ .reset) :
    t.toLatched = s.toLatched := by
  by_contra hne
  have := (h.toLatched_writers hr hne).1
  simp [hs] at this

/-- While the response is awaited nothing but a Tick moves the clock (42_transaction.md R115). -/
theorem Effect.ticks_awaiting (h : Effect i s t) (hs : s.state = .awaitingResponse) (hr : i ≠ .reset) (hi : i ≠ .tick) :
    t.ticks = s.ticks := by
  by_contra hne
  have := h.ticks_writers hr hne
  simp [hs, hi] at this

/-- A Tick that leaves the response awaited counts 1 (42_transaction.md R112). -/
theorem ticks_of_execTick (h : execTick s = .next t) (hs : s.state = .awaitingResponse)
    (ht : t.state = .awaitingResponse) : t.ticks.toNat = s.ticks.toNat + 1 := by
  rcases Nat.lt_or_ge (s.ticks.toNat + 1) s.window with hw | hw
  · obtain rfl := Host.Outcome.next.inj ((execTick_of_lt hs hw).symm.trans h)
    exact toNat_ofNat_of_le_window (Nat.le_of_lt hw)
  · obtain rfl := Host.Outcome.next.inj ((execTick_of_expired hs hw).symm.trans h)
    cases ht

end

/-- Settles O48: while the response is awaited only a Tick moves the clock, and only the last TxDone and Reset write the
latched length. -/
theorem windowIsOneSpan : Obligations.WindowIsOneSpan := by
  intro i s t _ h
  have he := exec_effect h
  refine ⟨fun hs ht => ?_, fun hr hne => ?_⟩
  · have hr : i ≠ .reset := by rintro rfl; cases h; cases ht
    refine ⟨he.toLatched_awaiting hs hr, ?_⟩
    split_ifs with hi
    · subst hi; exact ticks_of_execTick h hs ht
    · rw [he.ticks_awaiting hs hr hi, Nat.add_zero]
  · cases he with
    | txLast hs => exact ⟨hs, rfl, rfl, rfl⟩
    | reset => exact absurd rfl hr
    | _ => exact absurd rfl hne

/-! ### Overlong responses -/

/-- Settles O50: with an expected length past the capacity no byte completes the response, and only START and Reset
clear RX_OVERRUN. -/
theorem overlongResponseEndsTimedOut : Obligations.OverlongResponseEndsTimedOut := by
  refine ⟨fun s b hInv hs hfull => ⟨hfull ▸ hInv.rule43.d.2 hs, execRxByte_of_full hs hfull.ge b⟩,
    fun i s t _ hs hlong h hr => ?_, fun i s t h hset hclear => ?_⟩
  · cases exec_effect h with
    | expired => exact .inr ⟨rfl, rfl, rfl⟩
    | completed _ _ hroom hlast | mismatched _ _ hroom hlast => omega
    | rxDropped => exact .inl ⟨hs, hlong, fun _ => rfl⟩
    | started _ _ _ hidle => simp [hs] at hidle
    | txLast htx => simp [hs] at htx
    | reset => exact absurd rfl hr
    | _ => exact .inl ⟨hs, hlong, id⟩
  · cases exec_effect h with
    | started _ hc => exact .inr ⟨hc, rfl⟩
    | reset => exact .inl rfl
    | rxDropped => cases hclear
    | _ => cases hset.symm.trans hclear

end Sys2Proof.Machine
end

section
/-! Proofs of the family 42_transaction: runs of the engine, from the frame's bytes (O43, O44) over the window (O47) to
a whole transaction (O57). -/

namespace Sys2Proof.Machine

/-! ### Sending the frame -/

/-- `t` is transmitting the frame `s` is transmitting, `k` bytes further on. -/
structure SentOn (s t : State) (k : Nat) : Prop where
  state : t.state = .transmitting
  frame : t.txFrame = s.txFrame
  expect : t.rxExpect = s.rxExpect
  idx : t.txIdx = s.txIdx + k

theorem SentOn.trans {s t u : State} {j k : Nat} (h : SentOn s t j) (h' : SentOn t u k) : SentOn s u (j + k) :=
  ⟨h'.state, h'.frame.trans h.frame, h'.expect.trans h.expect, by rw [h'.idx, h.idx, Nat.add_assoc]⟩

/-- In Transmitting an effect other than a TxDone's and Reset's leaves the frame and the byte it is at
(42_transaction.md R105). -/
theorem Effect.sentOn {i : Instr} {s t : State} (h : Effect i s t) (hs : s.state = .transmitting) (hr : i ≠ .reset)
    (hd : i ≠ .txDone) : SentOn s t 0 := by
  cases h with
  | txAdvanced | txLast => exact absurd rfl hd
  | reset => exact absurd rfl hr
  | buildRefused _ _ _ ha | built _ _ _ ha | started _ _ _ ha | completed _ ha | mismatched _ ha | expired ha =>
    simp [hs] at ha
  | _ => exact ⟨hs, rfl, rfl, rfl⟩

theorem step_txDone {s : State} {rest : List Input} (hin : s.inputs = .txDone :: rest) :
    step s = execTxDone (s.withInputs rest) :=
  step_of_fetch hin rfl

/-- One step of Transmitting sends a byte if it takes a TxDone, not the last one, and none if it takes another event. -/
theorem sentOn_of_step {s t : State} {e : Input} {l : List Input} (hs : s.state = .transmitting)
    (hin : s.inputs = e :: l) (hr : e ≠ .reset) (hidx : s.txIdx + [e].count .txDone < s.txFrame.length)
    (h : step s = .next t) : SentOn s t ([e].count .txDone) := by
  by_cases hd : e = .txDone
  · subst hd
    have hmore : execTxDone (s.withInputs l) = .next (s.withInputs l).advanceTx := execTxDone_of_lt hs hidx
    rw [step_txDone hin, hmore] at h
    cases h
    exact ⟨hs, rfl, rfl, rfl⟩
  · rw [List.count_singleton, if_neg (by simpa using hd)]
    have htaken : SentOn s (s.withInputs l) 0 := ⟨hs, rfl, rfl, rfl⟩
    rcases step_cases h with ⟨hnil, -⟩ | ⟨e', rest, he', hcase⟩
    · rw [hin] at hnil; cases hnil
    · obtain ⟨rfl, rfl⟩ := List.cons.inj (hin.symm.trans he')
      rcases hcase with ⟨-, rfl⟩ | ⟨i, hf, he⟩
      · exact htaken
      · exact htaken.trans (he.sentOn hs (fun hi => hr (fetchInput_eq_reset.1 (hi ▸ hf)))
          fun hi => hd (fetchInput_eq_txDone.1 (hi ▸ hf)))

/-- A run without Reset, and with fewer TxDones than bytes are left, sends a byte for each of them (42_transaction.md
R105). -/
theorem sentOn_of_run {s t : State} {l rest : List Input} (hs : s.state = .transmitting) (hin : s.inputs = l ++ rest)
    (hr : Input.reset ∉ l) (hidx : s.txIdx + l.count .txDone < s.txFrame.length) (h : runSteps l.length s = .next t) :
    SentOn s t (l.count .txDone) := by
  induction l generalizing s with
  | nil => cases h; exact ⟨hs, rfl, rfl, rfl⟩
  | cons e l ih =>
    have hcount : (e :: l).count Input.txDone = [e].count .txDone + l.count .txDone := List.count_append (l₁ := [e])
    rw [hcount] at hidx ⊢
    obtain ⟨u, hsu, hut⟩ := runSteps_succ_eq_next.1 h
    have hfirst : SentOn s u ([e].count .txDone) :=
      sentOn_of_step hs hin (List.ne_of_not_mem_cons hr).symm (by omega) hsu
    exact hfirst.trans (ih hfirst.state (step_inputs hin hsu).1 (List.not_mem_of_not_mem_cons hr)
      (by rw [hfirst.frame, hfirst.idx]; omega) hut)

/-- Settles O43: the run sends a byte for each TxDone, so the next byte of the frame is on offer. -/
theorem frameBytesAreOfferedInOrder : Obligations.FrameBytesAreOfferedInOrder := by
  refine ⟨fun s t l rest _ hs hin hr hidx h => ?_, fun s hs => txOut_of_not_transmitting hs⟩
  obtain ⟨ht, hframe, -, htidx⟩ := sentOn_of_run hs hin hr hidx h
  have hout : t.txOut = s.txFrame[s.txIdx + l.count .txDone]? := by rw [txOut_of_transmitting ht, hframe, htidx]
  refine ⟨ht, de_eq_true_iff.2 ht, hframe, htidx, hout, ?_⟩
  rw [hout, List.getElem?_eq_getElem hidx]
  exact Option.some_ne_none _

/-- Settles O44: the run sends all bytes but one, and the next TxDone is the last. -/
theorem lastTxDoneStartsTheWindow : Obligations.LastTxDoneStartsTheWindow := by
  intro s t l rest hInv hs hin hr hlast h
  obtain ⟨u, hsu, hut⟩ := runSteps_add_eq_next.1 h
  obtain ⟨hu, hframe, hexpect, hidx⟩ := sentOn_of_run hs hin hr (by omega) hsu
  have hempty : u.rxFrame = [] := ((runSteps_keeps everyStepKeepsInvariant hInv hsu).rule43.e hu).1
  have hstep : step u = .next (u.withInputs rest).awaitResponse := by
    rw [step_txDone (inputs_of_run hin hsu)]
    exact execTxDone_of_last hu (by simp [hframe, hidx]; omega)
  rw [runSteps_succ_of_step 0 hstep] at hut
  cases hut
  exact ⟨rfl, rfl, rfl, by simp [hidx, hlast], hframe, rfl, rfl, hempty, hexpect⟩

/-! ### The window -/

section

variable {s : State} {rest : List Input}

theorem step_tick_of_lt (hin : s.inputs = .tick :: rest) (hs : s.state = .awaitingResponse)
    (hw : s.ticks.toNat + 1 < s.window) : step s = .next ((s.withInputs rest).setTicks (s.ticks.toNat + 1)) :=
  (step_of_fetch hin rfl).trans (execTick_of_lt (s := s.withInputs rest) hs hw)

theorem step_tick_of_expired (hin : s.inputs = .tick :: rest) (hs : s.state = .awaitingResponse)
    (hw : s.window ≤ s.ticks.toNat + 1) :
    step s = .next (((s.setTicks (s.ticks.toNat + 1)).endTransaction .timedOut []).withInputs rest) :=
  (step_of_fetch hin rfl).trans (execTick_of_expired (s := s.withInputs rest) hs hw)

/-- The Ticks a window of `w` has left end it, the last one with TimedOut (42_transaction.md R112). -/
theorem runSteps_ticks_to_expiry {w : Nat} (n : Nat) (hin : s.inputs = List.replicate (n + 1) .tick ++ rest)
    (hs : s.state = .awaitingResponse) (hw : max s.toLatched.toNat 1 = w) (hn : s.ticks.toNat + (n + 1) = w) :
    runSteps (n + 1) s = .next { s with
      state := .idle, done := true, txnResult := .timedOut, rxFrame := [], ticks := BitVec.ofNat 16 w,
      inputs := rest } := by
  induction n generalizing s with
  | zero =>
    rw [runSteps_succ_of_step 0 (step_tick_of_expired hin hs (Nat.le_of_eq (hw.trans hn.symm))), hn]
    rfl
  | succ n ih =>
    have hmore : s.ticks.toNat + 1 < s.window := Nat.lt_of_lt_of_eq (by omega) hw.symm
    have hcount : (BitVec.ofNat 16 (s.ticks.toNat + 1)).toNat + (n + 1) = w := by
      rw [toNat_ofNat_of_le_window (Nat.le_of_lt hmore)]
      omega
    rw [runSteps_succ_of_step _ (step_tick_of_lt hin hs hmore)]
    exact ih (s := (s.withInputs (List.replicate (n + 1) .tick ++ rest)).setTicks (s.ticks.toNat + 1)) rfl hs hw
      hcount

end

/-- An Idle state with a frame that RESP_LEN defines accepts a START (42_transaction.md R100). -/
theorem start_accepted {s : State} (hs : s.state = .idle) (hf : s.txFrame ≠ []) {len : Nat}
    (hl : respLen s.cfg (fcOf s.txFrame) (countOf s.txFrame) = some len) :
    ∃ t, exec .start s = .next t ∧ t.cmdStatus = .ok ∧ t.state = .transmitting :=
  ⟨_, execStart_of_respLen hs hf hl, rfl, rfl⟩

/-- Settles O47: the Ticks left expire the window, and the frame RESP_LEN gave a length before is still there to
START. -/
theorem silentSlaveTimesOut : Obligations.SilentSlaveTimesOut := by
  intro s rest hInv hs hin
  have hopen : s.ticks.toNat < max s.toLatched.toNat 1 := (hInv.rule43.f hs).1
  have hbusy : s.state ≠ .idle := by simp [hs]
  have hframe : s.txFrame ≠ [] := hInv.rule43.c hbusy
  obtain ⟨n, hn⟩ := Nat.exists_eq_add_of_lt hopen
  have hleft : max s.toLatched.toNat 1 - s.ticks.toNat = n + 1 := by
    rw [hn, Nat.add_assoc, Nat.add_sub_cancel_left]
  rw [hleft] at hin ⊢
  exact ⟨_, runSteps_ticks_to_expiry n hin hs rfl hn.symm, rfl, toNat_ofNat_of_le_window (s := s) (Nat.le_refl _),
    start_accepted rfl hframe (hInv.expectIsRespLen hbusy)⟩

/-! ### A whole transaction -/

/-- The TxDones of all bytes left send the frame and open the window (42_transaction.md R102, R103). -/
theorem runSteps_txDones (n : Nat) {s : State} {rest : List Input} (hs : s.state = .transmitting)
    (hin : s.inputs = List.replicate (n + 1) .txDone ++ rest) (hn : s.txIdx + (n + 1) = s.txFrame.length) :
    runSteps (n + 1) s = .next { s with
      state := .awaitingResponse, txIdx := s.txFrame.length, ticks := 0, toLatched := s.timeoutCfg,
      inputs := rest } := by
  induction n generalizing s with
  | zero =>
    have hstep := (step_txDone hin).trans (execTxDone_of_last hs (Nat.le_of_eq hn.symm))
    rw [runSteps_succ_of_step 0 hstep, ← hn]
    rfl
  | succ n ih =>
    have hmore : s.txIdx + 1 < s.txFrame.length := by omega
    have hstep := (step_txDone hin).trans (execTxDone_of_lt hs hmore)
    rw [runSteps_succ_of_step (n + 1) hstep]
    exact ih hs rfl ((Nat.add_right_comm ..).trans hn)

/-- The outcome reads the bytes it is given and nothing of those held before. -/
theorem complete_setRx (s : State) (l : List Input) (rx rx' : List Byte) :
    ((s.withInputs l).setRx rx).complete rx' = (s.complete rx').withInputs l := by
  rw [State.complete, State.complete]
  cases parse rx' <;> rfl

section

variable {s : State} {rest : List Input}

theorem step_rxByte_more {b : Byte} (hin : s.inputs = .rxByte b :: rest) (hs : s.state = .awaitingResponse)
    (hroom : s.rxFrame.length < s.cfg.rxCapacity) (hmore : s.rxFrame.length + 1 ≠ s.rxExpect) :
    step s = .next ((s.withInputs rest).setRx (s.rxFrame ++ [b])) :=
  (step_of_fetch hin rfl).trans (execRxByte_of_more (s := s.withInputs rest) hs hroom hmore b)

theorem step_rxByte_last {b : Byte} (hin : s.inputs = .rxByte b :: rest) (hs : s.state = .awaitingResponse)
    (hroom : s.rxFrame.length < s.cfg.rxCapacity) (hlast : s.rxFrame.length + 1 = s.rxExpect) :
    step s = .next ((s.complete (s.rxFrame ++ [b])).withInputs rest) := by
  rw [← complete_setRx s rest s.rxFrame]
  exact (step_of_fetch hin rfl).trans (execRxByte_of_last (s := s.withInputs rest) hs hroom hlast b)

/-- The bytes still expected, all of which fit the buffer, end the transaction with the outcome of the whole response
(42_transaction.md R108). -/
theorem runSteps_rxBytes {bs : List Byte} (hne : bs ≠ []) (hin : s.inputs = bs.map .rxByte ++ rest)
    (hs : s.state = .awaitingResponse) (hlen : s.rxFrame.length + bs.length = s.rxExpect)
    (hcap : s.rxExpect ≤ s.cfg.rxCapacity) :
    runSteps bs.length s = .next ((s.complete (s.rxFrame ++ bs)).withInputs rest) := by
  induction bs generalizing s with
  | nil => exact absurd rfl hne
  | cons b bs ih =>
    rw [List.length_cons] at hlen
    have hroom : s.rxFrame.length < s.cfg.rxCapacity := by omega
    cases bs with
    | nil => exact runSteps_succ_of_step 0 (step_rxByte_last hin hs hroom hlen)
    | cons c bs =>
      have hmore : s.rxFrame.length + 1 ≠ s.rxExpect := by rw [List.length_cons] at hlen; omega
      have hrest := ih (s := (s.withInputs ((c :: bs).map .rxByte ++ rest)).setRx (s.rxFrame ++ [b]))
        (List.cons_ne_nil c bs) rfl hs (by simp at hlen ⊢; omega) hcap
      refine (runSteps_succ_of_step _ (step_rxByte_more hin hs hroom hmore)).trans (hrest.trans ?_)
      rw [complete_setRx, State.setRx_rxFrame, List.append_assoc]
      rfl

end

/-- The state in which a transaction begun in `s`, expecting `len` bytes, awaits its response: the whole frame is sent
and the events of `l` are still to come (42_transaction.md R100, R102). -/
def State.requestSent (s : State) (len : Nat) (l : List Input) : State :=
  { ((s.beginTransaction len).report .ok).awaitResponse with txIdx := s.txFrame.length, inputs := l }

@[simp] theorem State.requestSent_rxFrame (s : State) (len : Nat) (l : List Input) :
    (s.requestSent len l).rxFrame = [] := rfl

/-- START and a TxDone for each byte of the frame send the request. -/
theorem runSteps_start_txDones {s : State} {len : Nat} {rest : List Input} (hs : s.state = .idle) (hf : s.txFrame ≠ [])
    (hl : respLen s.cfg (fcOf s.txFrame) (countOf s.txFrame) = some len)
    (hin : s.inputs = .busWrite s.cfg.base 4 0x11000000#32 :: (List.replicate s.txFrame.length .txDone ++ rest)) :
    runSteps (1 + s.txFrame.length) s = .next (s.requestSent len rest) := by
  obtain ⟨n, hn⟩ := Nat.exists_eq_succ_of_ne_zero (List.length_pos_iff.2 hf).ne'
  have hfetch := step_of_fetch hin (fetchInput_commandWrite s.cfg (i := .start) rfl rfl)
  have hstart := execStart_of_respLen (s := s.withInputs (List.replicate s.txFrame.length .txDone ++ rest)) hs hf hl
  rw [Nat.add_comm, runSteps_succ_of_step _ (hfetch.trans hstart), hn, runSteps_txDones n rfl rfl (by simp [hn])]
  rfl

/-- Settles O57: the request is sent, and the response, of at least 4 bytes, ends the transaction by its checksum. -/
theorem transactionEndToEnd : Obligations.TransactionEndToEnd := by
  intro s resp rest hInv hs hf hl hcap hin
  have hne : resp ≠ [] := List.length_pos_iff.1 (Nat.lt_of_lt_of_le (by decide) (hInv.respLen_range hf hl).1)
  have hsend := runSteps_start_txDones hs hf hl (by rw [hin, List.append_assoc])
  have hreceive := runSteps_rxBytes hne (s := s.requestSent resp.length (resp.map .rxByte ++ rest)) rfl rfl
    (Nat.zero_add _) hcap
  rw [State.requestSent_rxFrame, List.nil_append] at hreceive
  cases hp : parse resp with
  | ok r =>
    rw [complete_of_ok hp] at hreceive
    exact ⟨_, runSteps_add_eq_next.2 ⟨_, hsend, hreceive⟩, rfl, fun _ => ⟨rfl, rfl⟩, nofun⟩
  | crcError =>
    rw [complete_of_crcError hp] at hreceive
    exact ⟨_, runSteps_add_eq_next.2 ⟨_, hsend, hreceive⟩, rfl, nofun, fun _ => ⟨rfl, rfl⟩⟩

end Sys2Proof.Machine
end

section
/-! Proofs of the family 60_exceptions: the last expected byte against the expiring Tick (O49), and where the machine
stops (O54). -/

namespace Sys2Proof.Machine

/-! ### The last expected byte against the expiring Tick (60_exceptions.md R124) -/

/-- A transaction that completes is over, and its outcome is the checksum's (42_transaction.md R108, R109). -/
theorem complete_outcome (s : State) (rx : List Byte) :
    (s.complete rx).state = .idle ∧ (s.complete rx).ticks = s.ticks ∧
      ((s.complete rx).txnResult = .complete ∧ (s.complete rx).rxFrame = rx ∨
        (s.complete rx).txnResult = .crcError ∧ (s.complete rx).rxFrame = []) := by
  cases hp : parse rx with
  | ok r => rw [complete_of_ok hp]; exact ⟨rfl, rfl, .inl ⟨rfl, rfl⟩⟩
  | crcError => rw [complete_of_crcError hp]; exact ⟨rfl, rfl, .inr ⟨rfl, rfl⟩⟩

/-- A Tick outside AwaitingResponse is taken off the list, and nothing else happens (42_transaction.md R114). -/
theorem step_tick_of_not_awaiting {s : State} {rest : List Input} (hin : s.inputs = .tick :: rest)
    (hs : s.state ≠ .awaitingResponse) : step s = .next (s.withInputs rest) :=
  (step_of_fetch hin rfl).trans (execTick_of_not_awaiting (s := s.withInputs rest) hs)

/-- A byte outside AwaitingResponse is taken off the list and dropped (42_transaction.md R111). -/
theorem step_rxByte_of_not_awaiting {s : State} {b : Byte} {rest : List Input} (hin : s.inputs = .rxByte b :: rest)
    (hs : s.state ≠ .awaitingResponse) : step s = .next (s.withInputs rest) :=
  (step_of_fetch hin rfl).trans (execRxByte_of_not_awaiting (s := s.withInputs rest) hs b)

/-- Settles O49: whichever event comes first ends the transaction, and the other one finds the engine Idle. -/
theorem lastByteAgainstExpiringTick : Obligations.LastByteAgainstExpiringTick := by
  intro s b rest hs hroom hlast hwindow
  refine ⟨fun hin => ?_, fun hin => ?_⟩
  · obtain ⟨hidle, hticks, hend⟩ := complete_outcome s (s.rxFrame ++ [b])
    have hbyte := step_rxByte_last hin hs hroom hlast
    have htick : step ((s.complete (s.rxFrame ++ [b])).withInputs (.tick :: rest)) =
        .next ((s.complete (s.rxFrame ++ [b])).withInputs rest) :=
      step_tick_of_not_awaiting rfl (by simp [hidle])
    exact ⟨_, (runSteps_succ_of_step 1 hbyte).trans (runSteps_succ_of_step 0 htick), runSteps_succ_of_step 0 hbyte,
      hidle, hticks, hend⟩
  · have htick := step_tick_of_expired hin hs (Nat.le_of_eq hwindow.symm)
    have hbyte := step_rxByte_of_not_awaiting (b := b) (rest := rest)
      (s := ((s.setTicks (s.ticks.toNat + 1)).endTransaction .timedOut []).withInputs (.rxByte b :: rest)) rfl (by simp)
    exact ⟨_, (runSteps_succ_of_step 1 htick).trans (runSteps_succ_of_step 0 hbyte), runSteps_succ_of_step 0 htick,
      rfl, rfl, rfl⟩

/-! ### Unwritten bytes a buffer read meets -/

section

variable {s : State} {off : BitVec 10}

/-- Of the buffer bytes only those of PBUF can be unwritten (10_state.md R40 to R42). -/
theorem bufferByte_eq_none_iff (h : 0x100 ≤ off.toNat) :
    s.bufferByte off = none ↔ off.toNat < 0x200 ∧ s.pbuf.read (off.toNat - 0x100) = none := by
  rcases Nat.lt_or_ge off.toNat 0x200 with h2 | h2
  · simp [bufferByte_pbuf h h2, h2]
  · rcases Nat.lt_or_ge off.toNat 0x300 with h3 | h3
    · simp [bufferByte_txbuf h2 h3, Nat.not_lt.2 h2]
    · simp [bufferByte_rxbuf h3, Nat.not_lt.2 h2]

/-- A word has no value exactly where one of its bytes is unwritten (20_memory.md R53). -/
theorem bufferWord_eq_none_iff :
    s.bufferWord off = none ↔ ∃ k : Fin 4, s.bufferByte (off + BitVec.ofNat 10 k) = none := by
  refine ⟨fun hnone => ?_, fun ⟨_, hk⟩ => bufferWord_eq_none hk⟩
  by_contra hwritten
  have hbyte (k : Fin 4) : ∃ b, s.bufferByte (off + BitVec.ofNat 10 k) = some b :=
    Option.ne_none_iff_exists'.1 fun h => hwritten ⟨k, h⟩
  obtain ⟨b0, h0⟩ := hbyte 0
  obtain ⟨b1, h1⟩ := hbyte 1
  obtain ⟨b2, h2⟩ := hbyte 2
  obtain ⟨b3, h3⟩ := hbyte 3
  rw [bufferWord_of_bytes (by simpa using h0) h1 h2 h3] at hnone
  cases hnone

/-- An accepted buffer read has no answer exactly where it reads an unwritten byte of PBUF. -/
theorem bufferRead_eq_none_iff {n : Nat} (h : 0x100 ≤ off.toNat) (hn : n = 1 ∨ n = 4 ∧ off.toNat % 4 = 0) :
    s.bufferRead off n = none ↔ off.toNat < 0x200 ∧ ∃ k, k < n ∧ s.pbuf.read (off.toNat - 0x100 + k) = none := by
  obtain rfl | ⟨rfl, h4⟩ := hn
  · simp [State.bufferRead, bufferByte_eq_none_iff h]
  · have hbyte (k : Fin 4) : s.bufferByte (off + BitVec.ofNat 10 k) = none ↔
        off.toNat < 0x200 ∧ s.pbuf.read (off.toNat - 0x100 + k) = none := by
      have hk := toNat_add_of_aligned h4 k
      have hindex : off.toNat + k - 0x100 = off.toNat - 0x100 + k := Nat.sub_add_comm h
      rw [bufferByte_eq_none_iff (by omega), hk, hindex]
      exact and_congr_left' (by omega)
    simp only [State.bufferRead, if_neg (show ¬ 4 = 1 by decide), Option.map_eq_none_iff, bufferWord_eq_none_iff, hbyte,
      exists_and_left, Fin.exists_iff, exists_prop]

end

/-! ### Where the machine stops (10_state.md R40, 60_exceptions.md R119) -/

/-- The outcome is a next state or the fault UninitPayload, and it is the fault exactly where `P` holds. -/
def StopsExactlyWhen (r : Result) (P : Prop) : Prop :=
  ((∃ t, r = .next t) ∨ r = .fault .uninitPayload) ∧ (r = .fault .uninitPayload ↔ P)

theorem StopsExactlyWhen.of_next {r : Result} {P : Prop} (h : ∃ t, r = .next t) (hP : ¬P) : StopsExactlyWhen r P := by
  obtain ⟨t, rfl⟩ := h
  exact ⟨.inl ⟨t, rfl⟩, nofun, fun h => absurd h hP⟩

theorem StopsExactlyWhen.of_fault {r : Result} {P : Prop} (h : r = .fault .uninitPayload) (hP : P) :
    StopsExactlyWhen r P :=
  ⟨.inr h, fun _ => hP, fun _ => h⟩

theorem StopsExactlyWhen.congr {r : Result} {P Q : Prop} (h : StopsExactlyWhen r P) (hPQ : P ↔ Q) :
    StopsExactlyWhen r Q :=
  ⟨h.1, h.2.trans hPQ⟩

/-- The command reads an unwritten byte of PBUF: CRC_PBUF (40_crc.md R81), or BUILD past its checks
(41_frame_codec.md R95). -/
def CommandReadsUnwritten (c : Instr) (s : State) : Prop :=
  (∃ n, c = .crcPbuf n ∧ s.payload n.toNat = none) ∨
    (c = .build ∧ s.state = .idle ∧ s.reqCount.toNat ≤ s.cfg.maxCount ∧
      s.reqPlen.toNat ≤ s.cfg.txCapacity - Config.frameOverhead ∧ s.payload s.reqPlen.toNat = none)

/-- The host read is an accepted read of PBUF that meets an unwritten byte (20_memory.md R52, R53). -/
def HostReadsUnwritten (off : BitVec 10) (n : Nat) (s : State) : Prop :=
  0x100 ≤ off.toNat ∧ off.toNat < 0x200 ∧ (n = 1 ∨ n = 4 ∧ off.toNat % 4 = 0) ∧
    ∃ k, k < n ∧ s.pbuf.read (off.toNat - 0x100 + k) = none

section

variable {s : State}

theorem stops_crcPbuf (n : BitVec 9) : StopsExactlyWhen (exec (.crcPbuf n) s) (s.payload n.toNat = none) := by
  cases hp : s.payload n.toNat with
  | none => exact .of_fault (exec_crcPbuf_eq_fault_iff.2 hp) rfl
  | some bytes => exact .of_next ⟨_, exec_crcPbuf_eq_next_iff.2 ⟨bytes, hp, rfl⟩⟩ nofun

/-- BUILD reads the payload only when its three checks pass (41_frame_codec.md R95). -/
theorem stops_build : StopsExactlyWhen (exec .build s)
    (s.state = .idle ∧ s.reqCount.toNat ≤ s.cfg.maxCount ∧
      s.reqPlen.toNat ≤ s.cfg.txCapacity - Config.frameOverhead ∧ s.payload s.reqPlen.toNat = none) := by
  by_cases hs : s.state = .idle
  swap
  · exact .of_next ⟨_, execBuild_of_busy hs⟩ fun h => hs h.1
  rcases Nat.lt_or_ge s.cfg.maxCount s.reqCount.toNat with hcount | hcount
  · exact .of_next ⟨_, execBuild_of_lengthExceeded hs hcount⟩ fun ⟨_, hle, _⟩ => Nat.not_lt.2 hle hcount
  rcases Nat.lt_or_ge (s.cfg.txCapacity - Config.frameOverhead) s.reqPlen.toNat with hplen | hplen
  · exact .of_next ⟨_, execBuild_of_txOverflow hs hcount hplen⟩ fun ⟨_, _, hle, _⟩ => Nat.not_lt.2 hle hplen
  cases hp : s.payload s.reqPlen.toNat with
  | none => exact .of_fault (execBuild_of_unwritten hs hcount hplen hp) ⟨hs, hcount, hplen, rfl⟩
  | some bytes => exact .of_next ⟨_, execBuild_of_payload hs hcount hplen hp⟩ fun ⟨_, _, _, hnone⟩ => nomatch hnone

/-- START reads the built frame only (42_transaction.md R100), so it always goes on. -/
theorem exists_execStart_eq_next (s : State) : ∃ t, execStart s = .next t := by
  by_cases hs : s.state = .idle
  swap
  · exact ⟨_, execStart_of_busy hs⟩
  by_cases hf : s.txFrame = []
  · exact ⟨_, execStart_of_noFrame hs hf⟩
  cases hl : respLen s.cfg (fcOf s.txFrame) (countOf s.txFrame) with
  | none => exact ⟨_, execStart_of_unsupported hs hf hl⟩
  | some len => exact ⟨_, execStart_of_respLen hs hf hl⟩

theorem stops_command {c : Instr} (hc : c.isCommand = true) :
    StopsExactlyWhen (exec c s) (CommandReadsUnwritten c s) := by
  cases c with
  | crcInit => exact .of_next ⟨_, exec_crcInit s⟩ (by simp [CommandReadsUnwritten])
  | crcFeed b => exact .of_next ⟨_, exec_crcFeed b s⟩ (by simp [CommandReadsUnwritten])
  | crcPbuf n => exact (stops_crcPbuf n).congr (by simp [CommandReadsUnwritten])
  | build => exact stops_build.congr (by simp [CommandReadsUnwritten])
  | start => exact .of_next (exists_execStart_eq_next s) (by simp [CommandReadsUnwritten])
  | hostRead | hostWrite | txDone | rxByte | tick | reset => cases hc

theorem stops_hostRead (off : BitVec 10) (n : Nat) :
    StopsExactlyWhen (exec (.hostRead off n) s) (HostReadsUnwritten off n s) := by
  rw [exec_hostRead]
  cases ha : accessAccepted off n with
  | false =>
    refine .of_next ⟨_, execHostRead_refused ha s⟩ fun ⟨hlo, _, hn, _⟩ => ?_
    rw [(accessAccepted_iff off n).2 (by omega)] at ha
    cases ha
  | true =>
    rcases accessAccepted_cases ha with ⟨r, rfl, rfl⟩ | hlo
    · exact .of_next ⟨_, execHostRead_register r s⟩ fun ⟨hlo, _⟩ => absurd hlo (by cases r <;> decide)
    · have hn : n = 1 ∨ n = 4 ∧ off.toNat % 4 = 0 := by
        have := (accessAccepted_iff off n).1 ha
        omega
      have hreads : s.bufferRead off n = none ↔ HostReadsUnwritten off n s := by
        simp [HostReadsUnwritten, bufferRead_eq_none_iff hlo hn, hlo, hn]
      rw [execHostRead_buffer ha hlo]
      cases hr : s.bufferRead off n with
      | none => exact .of_fault (readBuffer_eq_fault_iff.2 hr) (hreads.1 hr)
      | some a => exact .of_next ⟨_, readBuffer_eq_next_iff.2 ⟨a, hr, rfl⟩⟩ fun h => by simp [hreads.2 h] at hr

/-- A host write that issues no command reads nothing, so it always goes on (20_memory.md R50, R54 to R57). -/
theorem exists_hostWrite_eq_next {off : BitVec 10} {n : Nat} {v : Word}
    (hc : issuedCommand (.hostWrite off n v) = none) : ∃ t, exec (.hostWrite off n v) s = .next t := by
  rw [exec_hostWrite]
  cases ha : accessAccepted off n with
  | false => exact ⟨_, execHostWrite_refused ha v s⟩
  | true =>
    rcases accessAccepted_cases ha with ⟨r, rfl, rfl⟩ | hlo
    · rw [execHostWrite_register]
      cases r with
      | cmd =>
        have hnone : commandOf v = none := hc
        cases hd : decodeCommand v with
        | ok j => rw [commandOf_eq_some_iff.2 hd] at hnone; cases hnone
        | error e => exact ⟨_, execCommandWord_of_reject hd s⟩
      | status | crc | reqHdr | reqArg | timeout | txInfo | rxInfo | ticks => exact ⟨_, rfl⟩
    · rcases Nat.lt_or_ge off.toNat 0x200 with hhi | hhi
      · exact ⟨_, execHostWrite_pbuf ha hlo hhi v s⟩
      · exact ⟨_, execHostWrite_frameWindow ha hhi v s⟩

theorem exists_execTxDone_eq_next (s : State) : ∃ t, execTxDone s = .next t := by
  by_cases hs : s.state = .transmitting
  swap
  · exact ⟨_, execTxDone_of_not_transmitting hs⟩
  rcases Nat.lt_or_ge (s.txIdx + 1) s.txFrame.length with hi | hi
  · exact ⟨_, execTxDone_of_lt hs hi⟩
  · exact ⟨_, execTxDone_of_last hs hi⟩

theorem exists_execRxByte_eq_next (b : Byte) (s : State) : ∃ t, execRxByte b s = .next t := by
  by_cases hs : s.state = .awaitingResponse
  swap
  · exact ⟨_, execRxByte_of_not_awaiting hs b⟩
  rcases Nat.lt_or_ge s.rxFrame.length s.cfg.rxCapacity with hroom | hfull
  swap
  · exact ⟨_, execRxByte_of_full hs hfull b⟩
  by_cases hlast : s.rxFrame.length + 1 = s.rxExpect
  · exact ⟨_, execRxByte_of_last hs hroom hlast b⟩
  · exact ⟨_, execRxByte_of_more hs hroom hlast b⟩

theorem exists_execTick_eq_next (s : State) : ∃ t, execTick s = .next t := by
  by_cases hs : s.state = .awaitingResponse
  swap
  · exact ⟨_, execTick_of_not_awaiting hs⟩
  rcases Nat.lt_or_ge (s.ticks.toNat + 1) s.window with hw | hw
  · exact ⟨_, execTick_of_lt hs hw⟩
  · exact ⟨_, execTick_of_expired hs hw⟩

/-- An instruction that issues a command does what that command does (20_memory.md R56). -/
theorem exec_of_issuedCommand {i c : Instr} (hc : issuedCommand i = some c) (s : State) :
    c.isCommand = true ∧ exec i s = exec c s := by
  cases i with
  | crcInit | crcFeed | crcPbuf | build | start => cases hc; exact ⟨rfl, rfl⟩
  | hostWrite off n v =>
    obtain ⟨⟨rfl, rfl⟩, hv⟩ := Option.ite_none_right_eq_some.1 hc
    have hd := commandOf_eq_some_iff.1 hv
    exact ⟨isCommand_of_decode hd, (exec_commandWrite v s).trans (execCommandWord_of_decode hd s)⟩
  | hostRead | txDone | rxByte | tick | reset => cases hc

/-- What issues no command stops only as a host read of an unwritten byte. -/
theorem stops_of_no_command {i : Instr} (hc : issuedCommand i = none) :
    StopsExactlyWhen (exec i s) (∃ off n, i = .hostRead off n ∧ HostReadsUnwritten off n s) := by
  cases i with
  | crcInit | crcFeed | crcPbuf | build | start => cases hc
  | hostRead off n => exact (stops_hostRead off n).congr (by simp)
  | hostWrite off n v => exact .of_next (exists_hostWrite_eq_next hc) (by simp)
  | txDone => exact .of_next (exists_execTxDone_eq_next s) (by simp)
  | rxByte b => exact .of_next (exists_execRxByte_eq_next b s) (by simp)
  | tick => exact .of_next (exists_execTick_eq_next s) (by simp)
  | reset => exact .of_next ⟨_, rfl⟩ (by simp)

end

/-- Settles O54: an instruction stops as the command it issues does, or, when it issues none, as a host read. -/
theorem stopsOnlyOnUnwrittenPayload : Obligations.StopsOnlyOnUnwrittenPayload := by
  intro i s
  cases hc : issuedCommand i with
  | some c =>
    obtain ⟨hcmd, hexec⟩ := exec_of_issuedCommand hc s
    have hread : ∀ off n, i ≠ .hostRead off n := by rintro off n rfl; cases hc
    rw [hexec]
    exact (stops_command hcmd).congr
      (by simp [CommandReadsUnwritten, payload_eq_none_iff, Config.frameOverhead, hread])
  | none =>
    exact (stops_of_no_command hc).congr (by simp [HostReadsUnwritten])

end Sys2Proof.Machine
end

section
/-! Proofs of the family 70_reset_and_hazards: what a Reset leaves of the state (O1, O2, O3), and how the engine depends
on the line and the tick facility (O45, O46, O56). -/

namespace Sys2Proof.Machine

/-! ### Reset (70_reset_and_hazards.md R131, R132) -/

theorem exec_reset (s : State) : exec .reset s = .next s.afterReset := rfl

/-- Reset gives every block field its value of 10_state.md R44. -/
theorem atReset_afterReset (s : State) : AtReset s.cfg.timeoutReset s.afterReset where
  engine := ⟨rfl, rfl⟩
  checksum := rfl
  request := ⟨rfl, rfl, rfl, rfl, rfl⟩
  timeoutCfg := rfl
  payload := Memory.read_nil
  transmit := ⟨rfl, rfl⟩
  receive := ⟨rfl, rfl, rfl⟩
  clock := ⟨rfl, rfl⟩
  outcome := ⟨rfl, rfl⟩
  command := rfl

/-- With no frame built and none received, the frame windows read 0 everywhere (10_state.md R41, R42). -/
theorem readsByte_zero_of_no_frames {s : State} (htx : s.txFrame = []) (hrx : s.rxFrame = []) {off : BitVec 10}
    (h : 0x200 ≤ off.toNat) : ReadsByte s off 0 := by
  rw [readsByte_iff (by omega)]
  rcases Nat.lt_or_ge off.toNat 0x300 with h3 | h3
  · rw [bufferByte_txbuf h h3, htx]; rfl
  · rw [bufferByte_rxbuf h3, hrx]; rfl

/-- After a Reset every register but TIMEOUT reads as it does in `State.reset` (10_state.md R44). -/
theorem readsWord_afterReset (s : State) (r : Reg) (h : r ≠ .timeout) :
    ReadsWord s.afterReset r.offset (State.reset.readReg r) := by
  refine readsWord_register_iff.2 ?_
  cases r with
  | timeout => exact absurd rfl h
  | _ => rfl

/-- Settles O1: the registers and the frame windows read the fields `AtReset` lists. -/
theorem resetRestoresEveryField : Obligations.ResetRestoresEveryField := by
  refine ⟨fun s => ⟨_, exec_reset s, atReset_afterReset s, ?_⟩, atReset_afterReset State.reset⟩
  have hreads := readsWord_afterReset s
  refine ⟨hreads .status nofun, hreads .crc nofun, hreads .reqHdr nofun, hreads .reqArg nofun, hreads .txInfo nofun,
    hreads .rxInfo nofun, hreads .ticks nofun, fun hdefault => ?_, fun off h => readsByte_zero_of_no_frames rfl rfl h⟩
  refine readsWord_register_iff (r := .timeout).2 ?_
  rw [State.readReg, State.afterReset_timeoutCfg, hdefault]
  rfl

/-- Settles O2: the state after a Reset is a function of the three fields it keeps (notes/assumptions/7.md). -/
theorem resetForgetsTheBlockState : Obligations.ResetForgetsTheBlockState := by
  intro s u hcfg hinputs hresp
  have hsame : u.afterReset = s.afterReset := by
    rw [State.afterReset, State.afterReset, hcfg, hinputs, hresp]
  exact ⟨s.afterReset, exec_reset s, hsame ▸ exec_reset u, rfl, rfl, rfl⟩

/-- Only the three effects that record an outcome, and Reset, take an outstanding transaction to Idle. -/
theorem Effect.outcome_of_ends {i : Instr} {s t : State} (h : Effect i s t) (hs : s.state ≠ .idle)
    (ht : t.state = .idle) (hr : i ≠ .reset) : t.done = true ∧ t.txnResult ≠ .none := by
  cases h with
  | completed | mismatched | expired => exact ⟨rfl, TxnResult.noConfusion⟩
  | reset => exact absurd rfl hr
  | started | txLast => cases ht
  | _ => exact absurd ht hs

/-- Settles O3: after a Reset the engine is Idle, where a late TxDone or byte is ignored; what else ends a transaction
records its outcome. -/
theorem resetAbandonsTransaction : Obligations.ResetAbandonsTransaction := by
  refine ⟨fun s t h => ?_, fun i s t hs h ht hr => (exec_effect h).outcome_of_ends hs ht hr⟩
  cases h
  exact ⟨rfl, rfl, rfl, rfl, rfl, rfl, execTxDone_of_not_transmitting (by simp), execRxByte_of_not_awaiting (by simp)⟩

/-! ### Steps that take a known event -/

/-- A step with an event pending drops the event, or runs the instruction it stands for. -/
theorem step_of_cons {s t : State} {e : Input} {l : List Input} (hin : s.inputs = e :: l) (h : step s = .next t) :
    (fetchInput s.cfg e = none ∧ t = s.withInputs l) ∨
      ∃ i, fetchInput s.cfg e = some i ∧ exec i (s.withInputs l) = .next t := by
  cases hf : fetchInput s.cfg e with
  | none => exact .inl ⟨rfl, Host.Outcome.next.inj (h.symm.trans (step_of_fetch_none hin hf))⟩
  | some i => exact .inr ⟨i, rfl, (step_of_fetch hin hf).symm.trans h⟩

/-- Only the Reset event stands for the Reset instruction (70_reset_and_hazards.md R131). -/
theorem ne_reset_of_fetch {cfg : Config} {e : Input} {i : Instr} (hf : fetchInput cfg e = some i) (he : e ≠ .reset) :
    i ≠ .reset := fun hi => he (fetchInput_eq_reset.1 (hi ▸ hf))

/-! ### A line that reports nothing (70_reset_and_hazards.md R139, R140) -/

/-- While nothing is reported and no Reset comes, the engine offers the same byte of the same frame. -/
theorem sentOn_zero_of_step {s t : State} {e : Input} {l : List Input} (hs : s.state = .transmitting)
    (hin : s.inputs = e :: l) (hr : e ≠ .reset) (hd : e ≠ .txDone) (h : step s = .next t) : SentOn s t 0 := by
  have htaken : SentOn s (s.withInputs l) 0 := ⟨hs, rfl, rfl, rfl⟩
  rcases step_of_cons hin h with ⟨-, rfl⟩ | ⟨i, hf, hexec⟩
  · exact htaken
  · exact htaken.trans ((exec_effect hexec).sentOn hs (ne_reset_of_fetch hf hr)
      fun hi => hd (fetchInput_eq_txDone.1 (hi ▸ hf)))

/-- A run without TxDone and Reset ends at the byte it began at (70_reset_and_hazards.md R140). -/
theorem sentOn_zero_of_run {s t : State} {l rest : List Input} (hs : s.state = .transmitting)
    (hin : s.inputs = l ++ rest) (hr : Input.reset ∉ l) (hd : Input.txDone ∉ l) (h : runSteps l.length s = .next t) :
    SentOn s t 0 := by
  induction l generalizing s with
  | nil => cases h; exact ⟨hs, rfl, rfl, rfl⟩
  | cons e l ih =>
    obtain ⟨u, hsu, hut⟩ := runSteps_succ_eq_next.1 h
    have hfirst : SentOn s u 0 :=
      sentOn_zero_of_step hs hin (List.ne_of_not_mem_cons hr).symm (List.ne_of_not_mem_cons hd).symm hsu
    exact hfirst.trans (ih hfirst.state (step_inputs hin hsu).1 (List.not_mem_of_not_mem_cons hr)
      (List.not_mem_of_not_mem_cons hd) hut)

/-- Settles O45: the run stays at the same byte, and in Transmitting BUILD and START are Busy. -/
theorem silentLineHangsTransmission : Obligations.SilentLineHangsTransmission := by
  intro s t l rest hs hin hr hd h
  obtain ⟨ht, -, -, hidx⟩ := sentOn_zero_of_run hs hin hr hd h
  have hbusy : t.state ≠ .idle := by simp [ht]
  exact ⟨ht, de_eq_true_iff.2 ht, hidx, execBuild_of_busy hbusy, execStart_of_busy hbusy⟩

/-- Settles O56: a byte is offered only in Transmitting, where TxDone counts it. -/
theorem dutifulTxDoneCountsOneByte : Obligations.DutifulTxDoneCountsOneByte := by
  intro s rest _ hduty hin
  have hout : s.txOut ≠ none := hduty (by rw [hin]; rfl)
  have hs : s.state = .transmitting := by
    by_contra hne
    exact hout (txOut_of_not_transmitting hne)
  rw [step_txDone hin]
  rcases Nat.lt_or_ge (s.txIdx + 1) s.txFrame.length with hi | hi
  · exact ⟨_, execTxDone_of_lt (s := s.withInputs rest) hs hi, rfl, txOut_of_transmitting hs, hout, .inl hs⟩
  · exact ⟨_, execTxDone_of_last (s := s.withInputs rest) hs hi, rfl, txOut_of_transmitting hs, hout, .inr rfl⟩

/-! ### The window ends (70_reset_and_hazards.md R141) -/

/-- A step that awaits the response goes on awaiting it in the same window, counting the event if it is a Tick, or ends
the transaction with an outcome. -/
theorem awaits_or_ends_of_step {s t : State} {e : Input} {l : List Input} (hInv : Inv s)
    (hs : s.state = .awaitingResponse) (hin : s.inputs = e :: l) (hr : e ≠ .reset) (h : step s = .next t) :
    (t.state = .awaitingResponse ∧ t.toLatched = s.toLatched ∧
        t.ticks.toNat = s.ticks.toNat + [e].count .tick) ∨
      (t.state = .idle ∧ t.done = true ∧ t.txnResult ≠ .none) := by
  rcases step_of_cons hin h with ⟨hf, rfl⟩ | ⟨i, hf, hexec⟩
  · have hne : e ≠ .tick := by rintro rfl; cases hf
    exact .inl ⟨hs, rfl, by simp [hne]⟩
  · have hInv' : Inv (s.withInputs l) := hInv.of_unread
    by_cases ht : t.state = .awaitingResponse
    · obtain ⟨hlatched, hticks⟩ := (windowIsOneSpan i _ t hInv' hexec).1 hs ht
      have htick : i = .tick ↔ e = .tick := by rw [← fetchInput_eq_tick (cfg := s.cfg), hf, Option.some_inj]
      exact .inl ⟨ht, hlatched, by simpa [htick, List.count_singleton] using hticks⟩
    · have hidle : t.state = .idle := ((engineTransitions i _ t hInv' hexec fun heq => ht (heq.trans hs)).2.2 hs).1
      exact .inr ⟨hidle, (exec_effect hexec).outcome_of_ends (by simp [hs]) hidle (ne_reset_of_fetch hf hr)⟩

/-- Settles O46, by induction on the events: with none left the window would be over, and each one ends the
transaction or leaves the rest of the window to the rest of the events. -/
theorem awaitingEndsWithinTheWindow : Obligations.AwaitingEndsWithinTheWindow := by
  intro s t l rest hInv hs hin hr hwindow h
  induction l generalizing s with
  | nil => exact absurd (hInv.rule43.f hs).1 (Nat.not_lt.2 hwindow)
  | cons e l ih =>
    obtain ⟨v, hsv, hvt⟩ := runSteps_succ_eq_next.1 h
    rcases awaits_or_ends_of_step hInv hs hin (List.ne_of_not_mem_cons hr).symm hsv with
      ⟨hv, hlatched, hticks⟩ | ⟨hv, hdone, hresult⟩
    · have hcount : (e :: l).count Input.tick = [e].count .tick + l.count .tick := List.count_append (l₁ := [e])
      obtain ⟨k, u, hk, hvu, hidle, hdone, hresult, hbefore⟩ := ih v (everyStepKeepsInvariant s v hInv hsv) hv
        (step_inputs hin hsv).1 (List.not_mem_of_not_mem_cons hr) (by rw [hlatched, hticks]; omega) hvt
      refine ⟨k + 1, u, Nat.succ_le_succ hk, (runSteps_succ_of_step k hsv).trans hvu, hidle, hdone, hresult,
        fun j hj => ?_⟩
      cases j with
      | zero => exact ⟨s, rfl, hs⟩
      | succ j =>
        rw [runSteps_succ_of_step j hsv]
        exact hbefore j (Nat.lt_of_succ_lt_succ hj)
    · refine ⟨1, v, by simp, runSteps_succ_of_step 0 hsv, hv, hdone, hresult, fun j hj => ?_⟩
      obtain rfl : j = 0 := by omega
      exact ⟨s, rfl, hs⟩

end Sys2Proof.Machine
end
